-- ==== Sys2Proof/Word.lean ====
section
/-! DEFINITION. The widths the block works in (00_scope.md R5 to R8, 10_state.md R9, R26): a byte, the 24-bit CRC
datapath, a 32-bit command word, a 64-bit result, a 112-bit frame and a 176-bit archive record. -/

namespace Sys2Proof

/-- One byte, as CRC.BYTE, FRM.PUTB and the frame bytes use it (R44, R49). -/
abbrev Byte := BitVec 8

/-- One value of the 24-bit CRC datapath (R7). -/
abbrev Word24 := BitVec 24

/-- One command word on port C (R44). -/
abbrev CommandWord := BitVec 32

/-- One 64-bit value: a RESULT, a timestamp, the position counter (R14, R17, R47). -/
abbrev Word64 := BitVec 64

/-- The number F = B[0] ++ ... ++ B[13] of a 14-byte frame, `B[0]` most significant (R49). -/
abbrev Frame := BitVec 112

/-- The 22 bytes STG[0] ++ ... ++ STG[21] of one archive record, `STG[0]` most significant (R19, R36, R57). -/
abbrev Record := BitVec 176

end Sys2Proof
end

