-- ==== Sys2Proof/Config.lean ====
section
/-! DEFINITION. The parameters and constants of 00_scope.md R5. POLY, W and PW are parameters of a machine and stand
as fields of State (R9, R12, R22); their default values are named here. Every other entry of R5 is a constant. -/

namespace Sys2Proof.Config

/-- POLY by default: the low 24 coefficients of the generator, x^24 implied (R5, R12, R62). -/
def defaultPoly : Word24 := 0xFFF409#24

/-- W by default: the capacity of the window (R5, R22). -/
def defaultCapacity : Nat := 1200

/-- W_MIN, the least legal W (R5, R22). -/
def minCapacity : Nat := 1196

/-- PW by default: the width in bits of one power sample (R5, R6). -/
def defaultSampleWidth : Nat := 35

/-- MSG_SAMPLES, the samples skipped after a frame is emitted (R5, R96). -/
def messageSamples : Nat := 1200

/-- NS_PER_SAMPLE, nanoseconds for each window position in a timestamp (R5, R96). -/
def nsPerSample : Word64 := 100#64

/-- PEAK_OFFS (R5, R85). -/
def peakOffsets : List Nat := [0, 10, 35, 45]

/-- NEXT_OFFS (R5, R86). -/
def nextOffsets : List Nat := [1, 11, 36, 46]

/-- FLOOR_OFFS: five offsets, 25 is not among them (R5, R88). -/
def floorOffsets : List Nat := [5, 15, 20, 30, 40]

/-- DATA_BASE, the offset of the first half of frame bit 0 (R5, R90). -/
def dataBase : Nat := 80

/-- BIT_STRIDE, samples of one frame bit (R5, R90). -/
def bitStride : Nat := 10

/-- HALF_BIT, from the first half of a bit to its second half (R5, R90). -/
def halfBit : Nat := 5

/-- FRAME_BYTES (R5, R49). -/
def frameBytes : Nat := 14

/-- DF_ES, the one accepted downlink format (R5, R50). -/
def acceptedFormat : BitVec 5 := 17#5

/-- REC_BYTES, the bytes of an archive record (R5, R57). -/
def recordBytes : Nat := 22

/-- The end of the domain of the position counter: the spec is valid only while POS < 2^57 (R8, R14). -/
def positionLimit : Nat := 2 ^ 57

end Sys2Proof.Config
end

