-- ==== Sys2Proof/Syntax.lean ====
section
/-! DEFINITION. What the block decodes, one constructor for each row of spec/opcode_table.json: the twenty commands of
30_encoding.md R45 and the thirty-two frame rows of R56.

Operands. An `imm8` operand is a byte. An `imm16` operand is "the field's value as a natural number" (R46), so it is a
Nat, and WellFormed.lean holds it to the field. A frame row's fields are those of R49: `c` is `B[0][2:0]`, `a` the ICAO
address, `m` the 51 bits of ME below the type code, `p` the checksum field; the downlink format and the type code are
the row's own. -/

namespace Sys2Proof

/-- One row of the opcode table. -/
inductive Instr where
  /-- SYS.STAT, OP 0x01, operand form none (R118). -/
  | sysStat
  /-- CRC.CLR, OP 0x10, operand form none (R68). -/
  | crcClr
  /-- CRC.BYTE, OP 0x11, operand form imm8 (R69). -/
  | crcByte (x : Byte)
  /-- CRC.RD, OP 0x12, operand form none (R70). -/
  | crcRd
  /-- CRC.TAB, OP 0x13, operand form imm8 (R71). -/
  | crcTab (t : Byte)
  /-- WIN.ADV, OP 0x20, operand form none (R79). -/
  | winAdv
  /-- WIN.ADVN, OP 0x21, operand form imm16 (R80). -/
  | winAdvn (n : Nat)
  /-- WIN.GET, OP 0x22, operand form imm16 (R81). -/
  | winGet (k : Nat)
  /-- WIN.POS, OP 0x23, operand form none (R82). -/
  | winPos
  /-- WIN.FULL, OP 0x24, operand form none (R83). -/
  | winFull
  /-- DEM.NEXT, OP 0x30, operand form none (R98). -/
  | demNext
  /-- FRM.PUTB, OP 0x40, operand form imm8 (R109). -/
  | frmPutb (x : Byte)
  /-- FRM.CHK, OP 0x41, operand form none (R110). -/
  | frmChk
  /-- FRM.DF, OP 0x42, operand form none (R111). -/
  | frmDf
  /-- FRM.ICAO, OP 0x43, operand form none (R112). -/
  | frmIcao
  /-- FRM.ME, OP 0x44, operand form none (R113). -/
  | frmMe
  /-- FRM.TC, OP 0x45, operand form none (R114). -/
  | frmTc
  /-- FRM.KIND, OP 0x46, operand form none (R115). -/
  | frmKind
  /-- FRM.TS, OP 0x47, operand form none (R116). -/
  | frmTs
  /-- FRM.BYTE, OP 0x48, operand form imm16 (R117). -/
  | frmByte (k : Nat)
  /-- FRAME.TC0.NONE (R49, R56). -/
  | frameTc0None (c : BitVec 3) (a : BitVec 24) (m : BitVec 51) (p : BitVec 24)
  /-- FRAME.TC1.IDENT (R49, R56). -/
  | frameTc1Ident (c : BitVec 3) (a : BitVec 24) (m : BitVec 51) (p : BitVec 24)
  /-- FRAME.TC2.IDENT (R49, R56). -/
  | frameTc2Ident (c : BitVec 3) (a : BitVec 24) (m : BitVec 51) (p : BitVec 24)
  /-- FRAME.TC3.IDENT (R49, R56). -/
  | frameTc3Ident (c : BitVec 3) (a : BitVec 24) (m : BitVec 51) (p : BitVec 24)
  /-- FRAME.TC4.IDENT (R49, R56). -/
  | frameTc4Ident (c : BitVec 3) (a : BitVec 24) (m : BitVec 51) (p : BitVec 24)
  /-- FRAME.TC5.NONE (R49, R56). -/
  | frameTc5None (c : BitVec 3) (a : BitVec 24) (m : BitVec 51) (p : BitVec 24)
  /-- FRAME.TC6.NONE (R49, R56). -/
  | frameTc6None (c : BitVec 3) (a : BitVec 24) (m : BitVec 51) (p : BitVec 24)
  /-- FRAME.TC7.NONE (R49, R56). -/
  | frameTc7None (c : BitVec 3) (a : BitVec 24) (m : BitVec 51) (p : BitVec 24)
  /-- FRAME.TC8.NONE (R49, R56). -/
  | frameTc8None (c : BitVec 3) (a : BitVec 24) (m : BitVec 51) (p : BitVec 24)
  /-- FRAME.TC9.POSITION (R49, R56). -/
  | frameTc9Position (c : BitVec 3) (a : BitVec 24) (m : BitVec 51) (p : BitVec 24)
  /-- FRAME.TC10.POSITION (R49, R56). -/
  | frameTc10Position (c : BitVec 3) (a : BitVec 24) (m : BitVec 51) (p : BitVec 24)
  /-- FRAME.TC11.POSITION (R49, R56). -/
  | frameTc11Position (c : BitVec 3) (a : BitVec 24) (m : BitVec 51) (p : BitVec 24)
  /-- FRAME.TC12.POSITION (R49, R56). -/
  | frameTc12Position (c : BitVec 3) (a : BitVec 24) (m : BitVec 51) (p : BitVec 24)
  /-- FRAME.TC13.POSITION (R49, R56). -/
  | frameTc13Position (c : BitVec 3) (a : BitVec 24) (m : BitVec 51) (p : BitVec 24)
  /-- FRAME.TC14.POSITION (R49, R56). -/
  | frameTc14Position (c : BitVec 3) (a : BitVec 24) (m : BitVec 51) (p : BitVec 24)
  /-- FRAME.TC15.POSITION (R49, R56). -/
  | frameTc15Position (c : BitVec 3) (a : BitVec 24) (m : BitVec 51) (p : BitVec 24)
  /-- FRAME.TC16.POSITION (R49, R56). -/
  | frameTc16Position (c : BitVec 3) (a : BitVec 24) (m : BitVec 51) (p : BitVec 24)
  /-- FRAME.TC17.POSITION (R49, R56). -/
  | frameTc17Position (c : BitVec 3) (a : BitVec 24) (m : BitVec 51) (p : BitVec 24)
  /-- FRAME.TC18.POSITION (R49, R56). -/
  | frameTc18Position (c : BitVec 3) (a : BitVec 24) (m : BitVec 51) (p : BitVec 24)
  /-- FRAME.TC19.VELOCITY (R49, R56). -/
  | frameTc19Velocity (c : BitVec 3) (a : BitVec 24) (m : BitVec 51) (p : BitVec 24)
  /-- FRAME.TC20.POSITION (R49, R56). -/
  | frameTc20Position (c : BitVec 3) (a : BitVec 24) (m : BitVec 51) (p : BitVec 24)
  /-- FRAME.TC21.POSITION (R49, R56). -/
  | frameTc21Position (c : BitVec 3) (a : BitVec 24) (m : BitVec 51) (p : BitVec 24)
  /-- FRAME.TC22.POSITION (R49, R56). -/
  | frameTc22Position (c : BitVec 3) (a : BitVec 24) (m : BitVec 51) (p : BitVec 24)
  /-- FRAME.TC23.NONE (R49, R56). -/
  | frameTc23None (c : BitVec 3) (a : BitVec 24) (m : BitVec 51) (p : BitVec 24)
  /-- FRAME.TC24.NONE (R49, R56). -/
  | frameTc24None (c : BitVec 3) (a : BitVec 24) (m : BitVec 51) (p : BitVec 24)
  /-- FRAME.TC25.NONE (R49, R56). -/
  | frameTc25None (c : BitVec 3) (a : BitVec 24) (m : BitVec 51) (p : BitVec 24)
  /-- FRAME.TC26.NONE (R49, R56). -/
  | frameTc26None (c : BitVec 3) (a : BitVec 24) (m : BitVec 51) (p : BitVec 24)
  /-- FRAME.TC27.NONE (R49, R56). -/
  | frameTc27None (c : BitVec 3) (a : BitVec 24) (m : BitVec 51) (p : BitVec 24)
  /-- FRAME.TC28.NONE (R49, R56). -/
  | frameTc28None (c : BitVec 3) (a : BitVec 24) (m : BitVec 51) (p : BitVec 24)
  /-- FRAME.TC29.NONE (R49, R56). -/
  | frameTc29None (c : BitVec 3) (a : BitVec 24) (m : BitVec 51) (p : BitVec 24)
  /-- FRAME.TC30.NONE (R49, R56). -/
  | frameTc30None (c : BitVec 3) (a : BitVec 24) (m : BitVec 51) (p : BitVec 24)
  /-- FRAME.TC31.NONE (R49, R56). -/
  | frameTc31None (c : BitVec 3) (a : BitVec 24) (m : BitVec 51) (p : BitVec 24)
  deriving DecidableEq, Repr

end Sys2Proof
end

