-- ==== Sys2Proof/WellFormed.lean ====
section
/-! DEFINITION. The well-formedness of an instruction: an `imm16` operand is 0 to 65535 (30_encoding.md R46). A byte
operand and the fields of a frame row fit their fields by their types, so there is nothing to check there. -/

namespace Sys2Proof

/-- The operand fits the field the encoding gives it (R46). -/
def Instr.wellFormed : Instr → Bool
  | .winAdvn n => decide (n < 65536)
  | .winGet k => decide (k < 65536)
  | .frmByte k => decide (k < 65536)
  | .sysStat => true
  | .crcClr => true
  | .crcByte _ => true
  | .crcRd => true
  | .crcTab _ => true
  | .winAdv => true
  | .winPos => true
  | .winFull => true
  | .demNext => true
  | .frmPutb _ => true
  | .frmChk => true
  | .frmDf => true
  | .frmIcao => true
  | .frmMe => true
  | .frmTc => true
  | .frmKind => true
  | .frmTs => true
  | .frameTc0None _ _ _ _ => true
  | .frameTc1Ident _ _ _ _ => true
  | .frameTc2Ident _ _ _ _ => true
  | .frameTc3Ident _ _ _ _ => true
  | .frameTc4Ident _ _ _ _ => true
  | .frameTc5None _ _ _ _ => true
  | .frameTc6None _ _ _ _ => true
  | .frameTc7None _ _ _ _ => true
  | .frameTc8None _ _ _ _ => true
  | .frameTc9Position _ _ _ _ => true
  | .frameTc10Position _ _ _ _ => true
  | .frameTc11Position _ _ _ _ => true
  | .frameTc12Position _ _ _ _ => true
  | .frameTc13Position _ _ _ _ => true
  | .frameTc14Position _ _ _ _ => true
  | .frameTc15Position _ _ _ _ => true
  | .frameTc16Position _ _ _ _ => true
  | .frameTc17Position _ _ _ _ => true
  | .frameTc18Position _ _ _ _ => true
  | .frameTc19Velocity _ _ _ _ => true
  | .frameTc20Position _ _ _ _ => true
  | .frameTc21Position _ _ _ _ => true
  | .frameTc22Position _ _ _ _ => true
  | .frameTc23None _ _ _ _ => true
  | .frameTc24None _ _ _ _ => true
  | .frameTc25None _ _ _ _ => true
  | .frameTc26None _ _ _ _ => true
  | .frameTc27None _ _ _ _ => true
  | .frameTc28None _ _ _ _ => true
  | .frameTc29None _ _ _ _ => true
  | .frameTc30None _ _ _ _ => true
  | .frameTc31None _ _ _ _ => true

/-- The same as a proposition, for hypotheses. -/
abbrev Instr.WellFormed (i : Instr) : Prop := i.wellFormed = true

end Sys2Proof
end

