-- ==== Sys2Proof/Decode.lean ====
section
/-! DEFINITION. The decoder and, after it, the encoder (30_encoding.md R44 to R49, R56). A command is one 32-bit word on
port C; a frame is 112 bits. Both decoders are total and reject by name. No byte order applies to a command word
(R38): port C carries the word as a number. -/

namespace Sys2Proof

/-- Why a code is no row of the opcode table. -/
inductive Illegal where
  /-- OP is not one of the twenty values of R45. Raised by the command decoder; the block answers E_ILLEGAL (safe). -/
  | opcode (op : Byte)
  /-- RSV is not 0 (R48). Raised by the command decoder; the block answers E_ILLEGAL (safe). -/
  | reserved
  /-- An immediate bit that the operand form requires to be 0 is 1 (R46, R48). Raised by the command decoder; the block
  answers E_ILLEGAL (safe). -/
  | immediate
  /-- The downlink format of a frame is not 17, so it is no row of R56. Raised by the frame decoder; not a fault of the
  block, FRM.CHK answers 0 for such a record (R50, R110). -/
  | downlinkFormat (df : BitVec 5)
  deriving DecidableEq, Repr

/-- What the decoder reads: a command word or the 112 bits of a frame. -/
inductive Code where
  | command (w : CommandWord)
  | frame (f : Frame)
  deriving DecidableEq, Repr

/-! ### Fields of a command word (R44) -/

/-- OP, bits 31:24. -/
def opField (w : CommandWord) : Byte := w.extractLsb' 24 8

/-- RSV, bits 23:16. -/
def rsvField (w : CommandWord) : Byte := w.extractLsb' 16 8

/-- IMM, bits 15:0. -/
def immField (w : CommandWord) : BitVec 16 := w.extractLsb' 0 16

/-- Operand form `none`: IMM must be 0 (R46). -/
def formNone (w : CommandWord) (i : Instr) : Except Illegal Instr :=
  if immField w = 0 then .ok i else .error .immediate

/-- Operand form `imm8`: the operand is IMM[7:0] and IMM[15:8] must be 0 (R46). -/
def formImm8 (w : CommandWord) (f : Byte → Instr) : Except Illegal Instr :=
  if w.extractLsb' 8 8 = 0 then .ok (f (w.extractLsb' 0 8)) else .error .immediate

/-- Operand form `imm16`: the operand is IMM as a natural number, never sign-extended or scaled (R46). -/
def formImm16 (w : CommandWord) (f : Nat → Instr) : Except Illegal Instr :=
  .ok (f (immField w).toNat)

/-- The opcode map of R45, applied to a word whose RSV field is 0. -/
def decodeOpcode (w : CommandWord) : Except Illegal Instr :=
  match (opField w).toNat with
  | 0x01 => formNone w .sysStat
  | 0x10 => formNone w .crcClr
  | 0x11 => formImm8 w .crcByte
  | 0x12 => formNone w .crcRd
  | 0x13 => formImm8 w .crcTab
  | 0x20 => formNone w .winAdv
  | 0x21 => formImm16 w .winAdvn
  | 0x22 => formImm16 w .winGet
  | 0x23 => formNone w .winPos
  | 0x24 => formNone w .winFull
  | 0x30 => formNone w .demNext
  | 0x40 => formImm8 w .frmPutb
  | 0x41 => formNone w .frmChk
  | 0x42 => formNone w .frmDf
  | 0x43 => formNone w .frmIcao
  | 0x44 => formNone w .frmMe
  | 0x45 => formNone w .frmTc
  | 0x46 => formNone w .frmKind
  | 0x47 => formNone w .frmTs
  | 0x48 => formImm16 w .frmByte
  | _ => .error (.opcode (opField w))

/-- The command decoder: a command is decoded from the word alone (R44), and an illegal word is one of R48. -/
def decodeCommand (w : CommandWord) : Except Illegal Instr :=
  if rsvField w = 0 then decodeOpcode w else .error .reserved

/-! ### Fields of a frame (R49) -/

/-- DF = F[111:107] = B[0][7:3] (R50). -/
def frameFormat (f : Frame) : BitVec 5 := f.extractLsb' 107 5

/-- B[0][2:0] = F[106:104], not named by the document (R55). -/
def frameLowBits (f : Frame) : BitVec 3 := f.extractLsb' 104 3

/-- ICAO = F[103:80] (R51). -/
def frameAddress (f : Frame) : Word24 := f.extractLsb' 80 24

/-- TC = F[79:75] = ME[55:51] (R53). -/
def frameTypeCode (f : Frame) : BitVec 5 := f.extractLsb' 75 5

/-- ME[50:0] = F[74:24], where the block does not look (R52). -/
def frameRest (f : Frame) : BitVec 51 := f.extractLsb' 24 51

/-- The checksum field F[23:0] (R54). -/
def frameChecksum (f : Frame) : Word24 := f.extractLsb' 0 24

/-- The frame row of a type code (R56). The last case is 31, the one 5-bit value left. -/
def frameRow (tc : BitVec 5) (c : BitVec 3) (a : BitVec 24) (m : BitVec 51) (p : BitVec 24) : Instr :=
  match tc.toNat with
  | 0 => .frameTc0None c a m p
  | 1 => .frameTc1Ident c a m p
  | 2 => .frameTc2Ident c a m p
  | 3 => .frameTc3Ident c a m p
  | 4 => .frameTc4Ident c a m p
  | 5 => .frameTc5None c a m p
  | 6 => .frameTc6None c a m p
  | 7 => .frameTc7None c a m p
  | 8 => .frameTc8None c a m p
  | 9 => .frameTc9Position c a m p
  | 10 => .frameTc10Position c a m p
  | 11 => .frameTc11Position c a m p
  | 12 => .frameTc12Position c a m p
  | 13 => .frameTc13Position c a m p
  | 14 => .frameTc14Position c a m p
  | 15 => .frameTc15Position c a m p
  | 16 => .frameTc16Position c a m p
  | 17 => .frameTc17Position c a m p
  | 18 => .frameTc18Position c a m p
  | 19 => .frameTc19Velocity c a m p
  | 20 => .frameTc20Position c a m p
  | 21 => .frameTc21Position c a m p
  | 22 => .frameTc22Position c a m p
  | 23 => .frameTc23None c a m p
  | 24 => .frameTc24None c a m p
  | 25 => .frameTc25None c a m p
  | 26 => .frameTc26None c a m p
  | 27 => .frameTc27None c a m p
  | 28 => .frameTc28None c a m p
  | 29 => .frameTc29None c a m p
  | 30 => .frameTc30None c a m p
  | _ => .frameTc31None c a m p

/-- The frame decoder: the row of R56 whose 112-bit pattern the frame matches. Whether its residue is 0 is no part of
the pattern; it is tested when the frame is received (R101). -/
def decodeFrame (f : Frame) : Except Illegal Instr :=
  if frameFormat f = Config.acceptedFormat then
    .ok (frameRow (frameTypeCode f) (frameLowBits f) (frameAddress f) (frameRest f) (frameChecksum f))
  else .error (.downlinkFormat (frameFormat f))

/-- The decoder over both kinds of code. -/
def decode : Code → Except Illegal Instr
  | .command w => decodeCommand w
  | .frame f => decodeFrame f

/-- The row the decoder reads from a code of `nbits` bits whose value is `w`: 32 bits are a command word; 112 bits are a
frame read as the one number F of R49, `B[13]` in its low byte. -/
def decodeTableWord (nbits w : Nat) : Option Instr :=
  if nbits = 32 then (decodeCommand (BitVec.ofNat 32 w)).toOption
  else if nbits = 112 then (decodeFrame (BitVec.ofNat 112 w)).toOption
  else none

/-! ### The encoder -/

/-- `word = (OP << 24) OR operand` (R46). -/
def commandWord (op : Byte) (imm : BitVec 16) : CommandWord :=
  (op.setWidth 32 <<< 24) ||| imm.setWidth 32

/-- A frame put together from the fields of R49, which tile the 112 bits. -/
def frameOfFields (df : BitVec 5) (c : BitVec 3) (a : BitVec 24) (tc : BitVec 5) (m : BitVec 51) (p : BitVec 24) :
    Frame :=
  (df.setWidth 112 <<< 107) ||| (c.setWidth 112 <<< 104) ||| (a.setWidth 112 <<< 80) ||| (tc.setWidth 112 <<< 75)
    ||| (m.setWidth 112 <<< 24) ||| p.setWidth 112

/-- The frame of a row of R56: downlink format 17 and the row's type code. -/
def rowFrame (tc : BitVec 5) (c : BitVec 3) (a : BitVec 24) (m : BitVec 51) (p : BitVec 24) : Frame :=
  frameOfFields Config.acceptedFormat c a tc m p

/-- The code of an instruction, from the encoding tables of R45, R46 and R49. -/
def encode : Instr → Code
  | .sysStat => .command (commandWord 0x01#8 0#16)
  | .crcClr => .command (commandWord 0x10#8 0#16)
  | .crcByte x => .command (commandWord 0x11#8 (x.setWidth 16))
  | .crcRd => .command (commandWord 0x12#8 0#16)
  | .crcTab t => .command (commandWord 0x13#8 (t.setWidth 16))
  | .winAdv => .command (commandWord 0x20#8 0#16)
  | .winAdvn n => .command (commandWord 0x21#8 (BitVec.ofNat 16 n))
  | .winGet k => .command (commandWord 0x22#8 (BitVec.ofNat 16 k))
  | .winPos => .command (commandWord 0x23#8 0#16)
  | .winFull => .command (commandWord 0x24#8 0#16)
  | .demNext => .command (commandWord 0x30#8 0#16)
  | .frmPutb x => .command (commandWord 0x40#8 (x.setWidth 16))
  | .frmChk => .command (commandWord 0x41#8 0#16)
  | .frmDf => .command (commandWord 0x42#8 0#16)
  | .frmIcao => .command (commandWord 0x43#8 0#16)
  | .frmMe => .command (commandWord 0x44#8 0#16)
  | .frmTc => .command (commandWord 0x45#8 0#16)
  | .frmKind => .command (commandWord 0x46#8 0#16)
  | .frmTs => .command (commandWord 0x47#8 0#16)
  | .frmByte k => .command (commandWord 0x48#8 (BitVec.ofNat 16 k))
  | .frameTc0None c a m p => .frame (rowFrame 0#5 c a m p)
  | .frameTc1Ident c a m p => .frame (rowFrame 1#5 c a m p)
  | .frameTc2Ident c a m p => .frame (rowFrame 2#5 c a m p)
  | .frameTc3Ident c a m p => .frame (rowFrame 3#5 c a m p)
  | .frameTc4Ident c a m p => .frame (rowFrame 4#5 c a m p)
  | .frameTc5None c a m p => .frame (rowFrame 5#5 c a m p)
  | .frameTc6None c a m p => .frame (rowFrame 6#5 c a m p)
  | .frameTc7None c a m p => .frame (rowFrame 7#5 c a m p)
  | .frameTc8None c a m p => .frame (rowFrame 8#5 c a m p)
  | .frameTc9Position c a m p => .frame (rowFrame 9#5 c a m p)
  | .frameTc10Position c a m p => .frame (rowFrame 10#5 c a m p)
  | .frameTc11Position c a m p => .frame (rowFrame 11#5 c a m p)
  | .frameTc12Position c a m p => .frame (rowFrame 12#5 c a m p)
  | .frameTc13Position c a m p => .frame (rowFrame 13#5 c a m p)
  | .frameTc14Position c a m p => .frame (rowFrame 14#5 c a m p)
  | .frameTc15Position c a m p => .frame (rowFrame 15#5 c a m p)
  | .frameTc16Position c a m p => .frame (rowFrame 16#5 c a m p)
  | .frameTc17Position c a m p => .frame (rowFrame 17#5 c a m p)
  | .frameTc18Position c a m p => .frame (rowFrame 18#5 c a m p)
  | .frameTc19Velocity c a m p => .frame (rowFrame 19#5 c a m p)
  | .frameTc20Position c a m p => .frame (rowFrame 20#5 c a m p)
  | .frameTc21Position c a m p => .frame (rowFrame 21#5 c a m p)
  | .frameTc22Position c a m p => .frame (rowFrame 22#5 c a m p)
  | .frameTc23None c a m p => .frame (rowFrame 23#5 c a m p)
  | .frameTc24None c a m p => .frame (rowFrame 24#5 c a m p)
  | .frameTc25None c a m p => .frame (rowFrame 25#5 c a m p)
  | .frameTc26None c a m p => .frame (rowFrame 26#5 c a m p)
  | .frameTc27None c a m p => .frame (rowFrame 27#5 c a m p)
  | .frameTc28None c a m p => .frame (rowFrame 28#5 c a m p)
  | .frameTc29None c a m p => .frame (rowFrame 29#5 c a m p)
  | .frameTc30None c a m p => .frame (rowFrame 30#5 c a m p)
  | .frameTc31None c a m p => .frame (rowFrame 31#5 c a m p)

end Sys2Proof
end

