-- ==== Sys2Proof/Machine/Operands.lean ====
section
/-! DEFINITION. How fields and bytes are taken out of values and put into them: zero extension to a RESULT (20_memory.md
R38), the bytes of a frame and of an archive record (R34 to R36, R49, R57), and the bit and byte primitives of
47_bit_byte_primitives.md with their domains (R142 to R148). The operand forms of a command word are in Decode.lean. -/

namespace Sys2Proof.Machine

/-- `zext_64`: a narrower field right-aligned in 64 bits (R38). -/
def zext64 {n : Nat} (v : BitVec n) : Word64 := v.setWidth 64

/-! ### Bytes of a frame and of a record -/

/-- `B[k]` of a frame, `B[0]` most significant (R49). -/
def frameByteAt (f : Frame) (k : Nat) : Byte := f.extractLsb' (104 - 8 * k) 8

/-- The fourteen bytes of a frame in order of reception (R49). -/
def frameBytes (f : Frame) : List Byte := (List.range Config.frameBytes).map (frameByteAt f)

/-- The frame with the given bytes, first byte most significant. -/
def frameOfBytes (bytes : List Byte) : Frame :=
  bytes.foldl (fun acc b => (acc <<< 8) ||| b.setWidth 112) 0

/-- `STG[k]` (R19). -/
def stagedByte (r : Record) (k : Nat) : Byte := r.extractLsb' (168 - 8 * k) 8

/-- `STG[k] <- x` (R109). -/
def setStagedByte (r : Record) (k : Nat) (x : Byte) : Record :=
  (r &&& ~~~((0xFF#176) <<< (168 - 8 * k))) ||| (x.setWidth 176 <<< (168 - 8 * k))

/-- `STG[0] ++ ... ++ STG[7]`, the timestamp of the record (R36, R110). -/
def recordTimestamp (r : Record) : Word64 := r.extractLsb' 112 64

/-- `STG[8], ..., STG[21]`, the frame of the record (R110). -/
def recordFrame (r : Record) : Frame := r.extractLsb' 0 112

/-- The record with this timestamp and this frame (R57). -/
def recordOf (ts : Word64) (f : Frame) : Record := (ts.setWidth 176 <<< 112) ||| f.setWidth 176

/-! ### The primitives (47_bit_byte_primitives.md). Outside its domain each one fails and gives no value (R149). -/

/-- `extractUnsigned(word, start, size)` (R142). -/
def extractUnsigned (word : Word64) (start size : Int) : Option Word64 :=
  if 1 ≤ size ∧ size ≤ 31 ∧ 0 ≤ start ∧ start + size ≤ 64 then
    some ((word >>> start.toNat) &&& BitVec.ofNat 64 (2 ^ size.toNat - 1))
  else none

/-- `testBit(word, index)` (R143). -/
def testBit (word : Word64) (index : Int) : Option Bool :=
  if 0 ≤ index ∧ index < 64 then some (word.getLsbD index.toNat) else none

/-- `byteAt(i)` on a byte sequence (R145). -/
def byteAt (bytes : List Byte) (i : Int) : Option Byte :=
  if 0 ≤ i then bytes[i.toNat]? else none

/-- Up to eight bytes packed big-endian into 64 bits. -/
def packBytes (bytes : List Byte) : Word64 :=
  bytes.foldl (fun acc b => (acc <<< 8) ||| b.setWidth 64) 0

/-- `bytesInRange(from, to)`, `to` exclusive (R146). -/
def bytesInRange (bytes : List Byte) (first last : Int) : Option Word64 :=
  if 0 ≤ first ∧ first ≤ last ∧ last ≤ bytes.length ∧ last - first ≤ 8 then
    some (packBytes ((bytes.drop first.toNat).take (last - first).toNat))
  else none

/-- The value of a hexadecimal digit, upper or lower case (R147). -/
def hexValue (c : Char) : Option (BitVec 4) :=
  if '0' ≤ c ∧ c ≤ '9' then some (BitVec.ofNat 4 (c.toNat - '0'.toNat))
  else if 'A' ≤ c ∧ c ≤ 'F' then some (BitVec.ofNat 4 (c.toNat - 'A'.toNat + 10))
  else if 'a' ≤ c ∧ c ≤ 'f' then some (BitVec.ofNat 4 (c.toNat - 'a'.toNat + 10))
  else none

/-- The upper-case hexadecimal digit of a nibble (R107, R147). -/
def hexDigit (n : BitVec 4) : Char :=
  if n.toNat < 10 then Char.ofNat ('0'.toNat + n.toNat) else Char.ofNat ('A'.toNat + (n.toNat - 10))

/-- The hexadecimal constructor: pairs of digits, high nibble first; fails on an odd length or a character that is no
digit (R147). -/
def bytesOfHex : List Char → Option (List Byte)
  | [] => some []
  | [_] => none
  | c :: d :: rest =>
    match hexValue c, hexValue d, bytesOfHex rest with
    | some h, some l, some bs => some (((h.setWidth 8 <<< 4) ||| l.setWidth 8) :: bs)
    | _, _, _ => none

/-- The string form: two upper-case digits for each byte (R147). -/
def hexOfBytes : List Byte → List Char
  | [] => []
  | b :: rest => hexDigit (b.extractLsb' 4 4) :: hexDigit (b.extractLsb' 0 4) :: hexOfBytes rest

/-- `HexUpper6(a)`: six characters, most significant nibble first, leading zeros kept (R107). -/
def hexUpper6 (a : Word24) : List Char :=
  [20, 16, 12, 8, 4, 0].map fun i => hexDigit (a.extractLsb' i 4)

end Sys2Proof.Machine
end

