-- ==== Sys2Proof/Machine/State.lean ====
section
/-! DEFINITION. The state of the block as plain data, its reset value, and the reasons a step can stop.

The architectural state is the list of 10_state.md R9. Three kinds of field stand beside it and are the model's own:
the parameters of the machine (R5, R12, R22), a command that waits on port S (R23, R165), and the four ports with what
the environment has put on them (R4, R25). TBL is not a field: "A model may make TBL a pure function of POLY instead
of state" (R11); it is `tblRead` of Machine/Crc24.lean. LEN is the length of WBUF (R13). FULL and STATUS are views
(R16, R21), in Machine/Flags.lean. -/

namespace Sys2Proof.Machine

/-- The 4-bit STATUS of a response (30_encoding.md R47). The codes 5 to 14 are never produced, so they have no name. -/
inductive Status where
  | ok
  | eIllegal
  | eRange
  | eNoFrame
  | eStage
  | eFaulted
  deriving DecidableEq, Repr

/-- The causes a command can raise and ERR can hold (60_exceptions.md R152). E_FAULTED is a status only. -/
inductive Cause where
  /-- E_ILLEGAL, any word at decode (R153). -/
  | illegal
  /-- E_RANGE, WIN.GET and FRM.BYTE (R154). -/
  | range
  /-- E_NOFRAME, the seven accessors (R158). -/
  | noFrame
  /-- E_STAGE, FRM.PUTB and FRM.CHK (R159). -/
  | stage
  deriving DecidableEq, Repr

/-- The four results of the dispatch on the type code (44_frame_parser.md R108). -/
inductive MessageKind where
  | noMessage
  | ident
  | position
  | velocity
  deriving DecidableEq, Repr

/-- One response on port R (R47). -/
structure Response where
  status : Status
  result : Word64
  deriving DecidableEq, Repr

/-- A command in progress that waits for port S (R33, R165). `left` counts the `Advance` still to perform, the one
that waits among them. -/
inductive Busy where
  /-- WIN.ADV waits for its item (R79). -/
  | adv
  /-- WIN.ADVN waits (R80). -/
  | advN (left : Nat)
  /-- DEM.NEXT waits in its fill phase (R98). -/
  | demFill
  /-- DEM.NEXT waits in the `Advance` of a rejected position; `prev` is PREV, that position's peak sum (R23, R97). -/
  | demStep (prev : Nat)
  /-- DEM.NEXT waits in the skip that follows an emission (R96). -/
  | demSkip (left : Nat)
  deriving DecidableEq, Repr

/-- The whole state. -/
structure State where
  /-- POLY, fixed when the block is instantiated (R12). -/
  poly : Word24
  /-- W, the capacity of the window, fixed when the block is instantiated (R22). -/
  capacity : Nat
  /-- PW, the width of a power sample, fixed when the block is instantiated (R5). -/
  sampleWidth : Nat
  /-- CRCR, the running residue of the CRC commands (R10). -/
  crcr : Word24
  /-- WBUF, oldest sample first; LEN is its length (R13). -/
  wbuf : List Nat
  /-- POS, the samples consumed since reset (R14). -/
  pos : Word64
  /-- EOS, sticky (R15). -/
  eos : Bool
  /-- FR.TS (R17). -/
  frTs : Word64
  /-- FR.B, the bytes B[0] to B[13] as the number F of R49 (R17). -/
  frB : Frame
  /-- FRV (R18). -/
  frv : Bool
  /-- STG, the bytes STG[0] to STG[21], STG[0] most significant (R19). -/
  stg : Record
  /-- SCNT, 0 to 22 (R19). -/
  scnt : Fin 23
  /-- ERR, sticky; 0 when no fault has occurred since reset (R20). -/
  err : BitVec 4
  /-- The model's own: the command in progress that waits for port S, if there is one (R165). -/
  busy : Option Busy
  /-- RST: is the reset input asserted (R166). The environment drives it. -/
  rst : Bool
  /-- Port C: the command words the host presents, next one first (R25). -/
  portC : List CommandWord
  /-- Port S: the samples the source has ready, next one first (R25, R33). -/
  portS : List Nat
  /-- Port S: has the source signalled the end of the stream, after the samples of `portS` (R33). -/
  srcEnded : Bool
  /-- Port R: the response to the command executed last; none while a command is in progress and before the first
  one (R47, R168). -/
  portR : Option Response
  deriving DecidableEq, Repr

/-- Why a step faults. The block's own faults (R152) are no faults of the model: they are answered on port R and the
step has a next state. -/
inductive Fault where
  /-- Raised by `advance` when the source delivers a sample of more than PW bits: the environment has broken its
  contract, and the treatment is "refuse" (93_implementation_defined.md U13). Safe. -/
  | sampleTooWide
  deriving DecidableEq, Repr

/-- Why a step is refused. -/
inductive Refusal where
  /-- No meaning yet for the instruction with this mnemonic. Answered by `exec` alone. Safe. -/
  | notModelled (mnemonic : String)
  /-- Raised by `advance` and `demEmit` where POS would leave the domain POS < 2^57: "what happens beyond is not
  defined by any source and a model refuses it" (00_scope.md R8). Safe. -/
  | positionOutOfDomain
  /-- Raised by DEM.NEXT when W < 1196: "below that bound DEM.NEXT has no meaning and is refused" (10_state.md R22).
  Safe. -/
  | windowTooSmall
  deriving DecidableEq, Repr

/-- What a step and a meaning answer. -/
abbrev Outcome := Host.Outcome State Fault Refusal

/-- The machine right after reset (70_reset_and_hazards.md R167) with the default parameters of R5 and nothing on its
ports. FR and STG are unspecified and unobservable after reset; the model holds 0 in them (DESIGN CHOICE, entry 1). -/
def State.reset : State where
  poly := Config.defaultPoly
  capacity := Config.defaultCapacity
  sampleWidth := Config.defaultSampleWidth
  crcr := 0
  wbuf := []
  pos := 0
  eos := false
  frTs := 0
  frB := 0
  frv := false
  stg := 0
  scnt := 0
  err := 0
  busy := none
  rst := false
  portC := []
  portS := []
  srcEnded := false
  portR := none

end Sys2Proof.Machine
end

