-- ==== Sys2Proof/Machine/Flags.lean ====
section
/-! DEFINITION. The codes of statuses and causes (R47, R152) and the read-only views of the state: LEN, FULL, BASE,
PositionOf and the 16-bit STATUS (10_state.md R13 to R16, R21; 20_memory.md R29). -/

namespace Sys2Proof.Machine

/-- The STATUS code of a response (R47). -/
def Status.code : Status → BitVec 4
  | .ok => 0
  | .eIllegal => 1
  | .eRange => 2
  | .eNoFrame => 3
  | .eStage => 4
  | .eFaulted => 15

/-- The code a cause puts into ERR (R152). -/
def Cause.code : Cause → BitVec 4
  | .illegal => 1
  | .range => 2
  | .noFrame => 3
  | .stage => 4

/-- The status a cause is answered with; `code(E)` of R151 is the same in both places. -/
def Cause.status : Cause → Status
  | .illegal => .eIllegal
  | .range => .eRange
  | .noFrame => .eNoFrame
  | .stage => .eStage

/-- The encoding of the dispatch result on port R (R108). -/
def MessageKind.code : MessageKind → Word64
  | .noMessage => 0
  | .ident => 1
  | .position => 2
  | .velocity => 3

/-- LEN (R13). -/
def State.len (s : State) : Nat := s.wbuf.length

/-- FULL, the document's `isFull()` (R16, R76). -/
def State.full (s : State) : Bool := s.len == s.capacity

/-- BASE = POS - LEN, the absolute index of the oldest retained sample (R14). -/
def State.base (s : State) : Nat := s.pos.toNat - s.len

/-- The absolute index of `w[k]`, counted from 0 at the first sample after reset (R29). -/
def State.absoluteIndex (s : State) (k : Nat) : Nat := s.base + k

/-- Is the block faulted, that is, is ERR not 0 (R155). -/
def State.faulted (s : State) : Bool := s.err != 0

/-- The 16-bit STATUS view of R21. -/
def State.statusView (s : State) : BitVec 16 :=
  (BitVec.ofBool s.full).setWidth 16
    ||| ((BitVec.ofBool s.eos).setWidth 16 <<< 1)
    ||| ((BitVec.ofBool s.frv).setWidth 16 <<< 2)
    ||| ((BitVec.ofBool s.faulted).setWidth 16 <<< 3)
    ||| (s.err.setWidth 16 <<< 4)
    ||| (BitVec.ofNat 16 s.scnt.val <<< 8)

end Sys2Proof.Machine
end

