-- ==== Sys2Proof/Machine/Ops.lean ====
section
/-! DEFINITION. The shared operations: answering a command, raising a fault, the checks at the start of a command,
reset, the reads of the index spaces, and the movement of the window. Raising a fault is the block's only exception
entry; nothing returns from it but reset (60_exceptions.md R151, R163). -/

namespace Sys2Proof.Machine

/-! ### Responses and faults -/

/-- `respond(status, result)`: answers the command and ends it (R47). -/
def State.respond (s : State) (st : Status) (r : Word64) : State :=
  { s with portR := some ⟨st, r⟩, busy := none }

/-- `raise E(info)`: no state changes but ERR, which takes the code if it was 0; the answer is `respond(code(E), 0)`
(R151). -/
def State.raise (s : State) (e : Cause) : State :=
  { s with err := if s.err = 0 then e.code else s.err }.respond e.status 0

/-- The refusal of a command by a faulted block (R155). -/
def State.refuseFaulted (s : State) : State := s.respond .eFaulted 0

/-- The check every command but SYS.STAT makes first: a faulted block refuses it (R155, R156). -/
def State.command (s : State) (k : Outcome) : Outcome :=
  if s.faulted then .next s.refuseFaulted else k

/-- An illegal word: E_FAULTED in a faulted block, else the fault E_ILLEGAL (R153, R156). -/
def State.illegalWord (s : State) : Outcome := s.command (.next (s.raise .illegal))

/-- The reset state of R167 in a block whose parameters and ports stay as they are: reset does not change POLY and W,
does not rewind port S, and abandons a command in progress without a response (R168). -/
def State.inReset (s : State) : State :=
  { State.reset with
    poly := s.poly, capacity := s.capacity, sampleWidth := s.sampleWidth,
    rst := s.rst, portC := s.portC, portS := s.portS, srcEnded := s.srcEnded }

/-! ### Reads of the index spaces (R28) -/

/-- `WinRead(k)` (R77): the bound is LEN. -/
def State.winRead (s : State) (k : Nat) : Except Cause Nat :=
  match s.wbuf[k]? with
  | some v => .ok v
  | none => .error .range

/-- `w[k]` where the rules read it inside its range. The demodulator reads a full window at offsets up to 1195 only,
where this is `WinRead(k)` (R77, R84); the 0 outside the range is never used. -/
def State.sampleAt (s : State) (k : Nat) : Nat := s.wbuf.getD k 0

/-- `FrameByte(k)`: E_NOFRAME comes before E_RANGE (R102, R157). -/
def State.frameByte (s : State) (k : Nat) : Except Cause Byte :=
  if s.frv = false then .error .noFrame
  else if 13 < k then .error .range
  else .ok (frameByteAt s.frB k)

/-- The answer of a frame accessor: E_NOFRAME while FRV = 0, else the value (R111 to R116, R158). -/
def State.answerFromFrame (s : State) (v : Word64) : Outcome :=
  s.command (if s.frv = false then .next (s.raise .noFrame) else .next (s.respond .ok v))

/-! ### The movement of the window -/

/-- How far a run of `Advance` operations came. -/
inductive Progress where
  /-- All were performed. -/
  | done (s : State)
  /-- Port S has neither a sample nor the end mark; `left` operations remain (R33, R165). -/
  | wait (left : Nat) (s : State)
  | fault (f : Fault)
  | refused (r : Refusal)
  deriving DecidableEq, Repr

/-- What a command answers after a run of `Advance` operations. -/
def Progress.resolve (p : Progress) (whenDone : State → Outcome) (whenWaiting : Nat → State → Outcome) : Outcome :=
  match p with
  | .done s => whenDone s
  | .wait left s => whenWaiting left s
  | .fault f => .fault f
  | .refused r => .refused r

/-- WBUF without its first element if the window is full, else WBUF (R74). -/
def State.retained (s : State) : List Nat := if s.full then s.wbuf.tail else s.wbuf

/-- `Advance()` (R74), `PullSample()` being the match on port S (R33). -/
def advance (s : State) : Progress :=
  match s.portS with
  | v :: rest =>
    if 2 ^ s.sampleWidth ≤ v then .fault .sampleTooWide
    else if Config.positionLimit ≤ s.pos.toNat + 1 then .refused .positionOutOfDomain
    else .done { s with wbuf := s.retained ++ [v], pos := s.pos + 1, portS := rest }
  | [] =>
    if s.srcEnded then .done { s with wbuf := s.retained, eos := true } else .wait 1 s

/-- `AdvanceBy(n)`: `Advance()` n times in a row; it does not stop early at the end of the stream (R75). -/
def advanceBy : Nat → State → Progress
  | 0, s => .done s
  | n + 1, s =>
    match advance s with
    | .done s' => advanceBy n s'
    | .wait _ s' => .wait (n + 1) s'
    | .fault f => .fault f
    | .refused r => .refused r

end Sys2Proof.Machine
end

