-- ==== Sys2Proof/Machine/Crc24.lean ====
section
/-! DEFINITION. Unit U1, the CRC-24 unit: the table, the fold and `crc24` (40_crc.md R62 to R67), and the four CRC
commands (R68 to R71). -/

namespace Sys2Proof.Machine

/-! ### The functions -/

/-- One of the 8 steps of R63: the bit tested is bit 23 before the shift. -/
def tableStep (poly v : Word24) : Word24 :=
  if v.getLsbD 23 then (v <<< 1) ^^^ poly else v <<< 1

/-- `n` of those steps. -/
def tableSteps (poly : Word24) : Nat → Word24 → Word24
  | 0, v => v
  | n + 1, v => tableSteps poly n (tableStep poly v)

/-- `TblRead(t)`: entry t starts from `t << 16` and takes 8 steps (R63, R64). -/
def tblRead (poly : Word24) (t : Byte) : Word24 := tableSteps poly 8 (t.setWidth 24 <<< 16)

/-- `Fold(c, x)` (R65); the 24-bit shift masks (R7). -/
def fold (poly : Word24) (c : Word24) (x : Byte) : Word24 :=
  ((c <<< 8) ||| x.setWidth 24) ^^^ tblRead poly (c.extractLsb' 16 8)

/-- `crc24(bytes)`: starts at 0, nothing appended, nothing reflected, nothing XORed in at the end (R66). -/
def crc24 (poly : Word24) (bytes : List Byte) : Word24 := bytes.foldl (fold poly) 0

/-- The three bytes of a 24-bit value, most significant first. -/
def bytesOfWord24 (v : Word24) : List Byte := [v.extractLsb' 16 8, v.extractLsb' 8 8, v.extractLsb' 0 8]

/-- `CRC24bytes(m)`: the checksum bytes to append to m (R67). -/
def crc24Bytes (poly : Word24) (m : List Byte) : List Byte := bytesOfWord24 (crc24 poly (m ++ [0, 0, 0]))

/-! ### The commands -/

/-- CRC.CLR (R68). -/
def execCrcClr (s : State) : Outcome := s.command (.next ({ s with crcr := 0 }.respond .ok 0))

/-- CRC.BYTE x (R69). -/
def execCrcByte (x : Byte) (s : State) : Outcome :=
  s.command (.next ({ s with crcr := fold s.poly s.crcr x }.respond .ok 0))

/-- CRC.RD (R70). -/
def execCrcRd (s : State) : Outcome := s.command (.next (s.respond .ok (zext64 s.crcr)))

/-- CRC.TAB t (R71). -/
def execCrcTab (t : Byte) (s : State) : Outcome := s.command (.next (s.respond .ok (zext64 (tblRead s.poly t))))

end Sys2Proof.Machine
end

