-- ==== Sys2Proof/Machine/Preamble.lean ====
section
/-! DEFINITION. Unit U3, the preamble detector (42_preamble_detector.md R84 to R89). Sums and comparisons are those of
the natural numbers (00_scope.md R6). It is evaluated on a full window only (R84). -/

namespace Sys2Proof.Machine

/-- The sum of the samples at the given offsets. -/
def State.sumAt (s : State) (offsets : List Nat) : Nat := (offsets.map s.sampleAt).sum

/-- `cur`, the peak sum (R85). -/
def State.peakSum (s : State) : Nat := s.sumAt Config.peakOffsets

/-- `nxt`, the following position's peak sum (R86). -/
def State.nextPeakSum (s : State) : Nat := s.sumAt Config.nextOffsets

/-- `flr`, twice the sum of the five valley samples (R88). -/
def State.floorSum (s : State) : Nat := 2 * s.sumAt Config.floorOffsets

/-- `PeakOK(PREV)`: a strict local maximum over both neighbours (R87). -/
def State.peakOk (s : State) (prev : Nat) : Bool :=
  decide (prev < s.peakSum) && decide (s.nextPeakSum < s.peakSum)

/-- `FloorOK`, not strict (R89). -/
def State.floorOk (s : State) : Bool := decide (s.floorSum ≤ s.peakSum)

end Sys2Proof.Machine
end

