-- ==== Sys2Proof/Machine/Demod.lean ====
section
/-! DEFINITION. Unit U4, the frame synchroniser and bit extractor, and DEM.NEXT (43_frame_sync.md R90 to R98). -/

namespace Sys2Proof.Machine

/-! ### Bit extraction -/

/-- `SliceBit(n)`: equality gives a 1 (R90). -/
def State.sliceBit (s : State) (n : Nat) : Bool :=
  decide (s.sampleAt (Config.dataBase + Config.halfBit + Config.bitStride * n)
    ≤ s.sampleAt (Config.dataBase + Config.bitStride * n))

/-- `SliceByte(k)`: bit i of the byte stands at place 7 - i, most significant bit first (R91). -/
def State.sliceByte (s : State) (k : Nat) : Byte :=
  ((List.range 8).map fun i => (BitVec.ofBool (s.sliceBit (8 * k + i))).setWidth 8 <<< (7 - i)).sum

/-- The candidate: all fourteen bytes from one window (R93). -/
def State.candidate (s : State) : Frame := frameOfBytes ((List.range Config.frameBytes).map s.sliceByte)

/-! ### The test at one position -/

/-- The verdicts of `DemodStep` (R95). The four rejects are treated alike and none is visible on a port. -/
inductive Verdict where
  | rejectPeak
  | rejectFloor
  | rejectFormat
  | rejectCrc
  | accept (c : Frame)
  deriving DecidableEq, Repr

/-- `DemodStep(PREV)`, in the document's order (R92 to R95). The current peak sum it also returns is `peakSum`. -/
def State.demodStep (s : State) (prev : Nat) : Verdict :=
  if !s.peakOk prev then .rejectPeak
  else if !s.floorOk then .rejectFloor
  else if (s.sliceByte 0).extractLsb' 3 5 ≠ Config.acceptedFormat then .rejectFormat
  else if crc24 s.poly (frameBytes s.candidate) ≠ 0 then .rejectCrc
  else .accept s.candidate

/-! ### The scan -/

/-- How a scan ends. -/
inductive Scan where
  /-- A candidate is accepted in the window of this state (R96). -/
  | found (c : Frame) (s : State)
  /-- The window is not full any more: the stream is exhausted (R98). -/
  | exhausted (s : State)
  /-- A position was rejected, `prev` is its peak sum, and its `Advance` waits for port S (R97, R165). -/
  | wait (prev : Nat) (s : State)
  | fault (f : Fault)
  | refused (r : Refusal)
  deriving DecidableEq, Repr

/-- One turn of the scan loop of R98: test the position; on a reject, PREV takes its peak sum and the window moves by
one sample (R97); `onward` is the rest of the loop. -/
def scanTurn (prev : Nat) (s : State) (onward : Nat → State → Scan) : Scan :=
  if s.full then
    match s.demodStep prev with
    | .accept c => .found c s
    | _ =>
      match advance s with
      | .done s' => onward s.peakSum s'
      | .wait _ s' => .wait s.peakSum s'
      | .fault f => .fault f
      | .refused r => .refused r
  else .exhausted s

/-- The scan loop "while LEN = W" (R98), by recursion on the samples port S has ready: every turn but the last takes
one. When none is left the `Advance` of a reject waits or finds the end mark, which ends the loop because the window
is then not full. It is called with `s.portS`. -/
def scan : List Nat → Nat → State → Scan
  | [], prev, s => scanTurn prev s fun _ s' => .exhausted s'
  | _ :: rest, prev, s => scanTurn prev s fun cur s' => scan rest cur s'

/-- The fill phase "while LEN < W and EOS = 0" (R98), by recursion on the W - LEN samples that are missing. -/
def fill : Nat → State → Progress
  | 0, s => .done s
  | n + 1, s =>
    if s.eos then .done s
    else
      match advance s with
      | .done s' => fill n s'
      | .wait _ s' => .wait (n + 1) s'
      | .fault f => .fault f
      | .refused r => .refused r

/-! ### The command -/

/-- The skip that follows an emission, with `left` operations still to perform, and the answer 1 (R96, R98). -/
def demSkip (left : Nat) (s : State) : Outcome :=
  (advanceBy left s).resolve (fun s' => .next (s'.respond .ok 1))
    (fun rest s' => .next { s' with busy := some (.demSkip rest) })

/-- The emission of R96. The timestamp is exact only while POS < 2^57 (R8). -/
def demEmit (c : Frame) (s : State) : Outcome :=
  if Config.positionLimit ≤ s.pos.toNat then .refused .positionOutOfDomain
  else demSkip Config.messageSamples { s with frTs := s.pos * Config.nsPerSample, frB := c, frv := true }

/-- The scan phase from a given PREV, and the answer 0 when the stream is exhausted (R98). -/
def demScan (prev : Nat) (s : State) : Outcome :=
  match scan s.portS prev s with
  | .found c s' => demEmit c s'
  | .exhausted s' => .next ({ s' with frv := false }.respond .ok 0)
  | .wait prev' s' => .next { s' with busy := some (.demStep prev') }
  | .fault f => .fault f
  | .refused r => .refused r

/-- The `Advance` of a rejected position whose peak sum is `prev`, then the scan again (R97). -/
def demMove (prev : Nat) (s : State) : Outcome :=
  (advance s).resolve (demScan prev) (fun _ s' => .next { s' with busy := some (.demStep prev) })

/-- The fill phase, then the scan with PREV = 0 (R98). -/
def demFill (s : State) : Outcome :=
  (fill (s.capacity - s.len) s).resolve (demScan 0) (fun _ s' => .next { s' with busy := some .demFill })

/-- DEM.NEXT (R98). With W < 1196 it has no meaning and is refused (R22, R184). -/
def execDemNext (s : State) : Outcome :=
  s.command (if s.capacity < Config.minCapacity then .refused .windowTooSmall else demFill s)

end Sys2Proof.Machine
end

