-- ==== Sys2Proof/Machine/FrameParser.lean ====
section
/-! DEFINITION. Unit U5, the frame header parser with checksum dispatch: validation, the header fields, the dispatch on
the type code (44_frame_parser.md R100 to R108) and the nine FRM commands (R109 to R117). -/

namespace Sys2Proof.Machine

/-! ### The functions -/

/-- `Validate(C)`: downlink format 17 and residue 0 (R101). -/
def validate (poly : Word24) (c : Frame) : Bool :=
  decide (frameFormat c = Config.acceptedFormat) && decide (crc24 poly (frameBytes c) = 0)

/-- `DownlinkFormat() = B[0][7:3]` (R103). -/
def downlinkFormat (f : Frame) : BitVec 5 := (frameByteAt f 0).extractLsb' 3 5

/-- `IcaoAddress() = B[1] ++ B[2] ++ B[3]` (R104). -/
def icaoAddress (f : Frame) : Word24 := f.extractLsb' 80 24

/-- `Payload() = B[4] ++ ... ++ B[10]` (R105). -/
def payload (f : Frame) : BitVec 56 := f.extractLsb' 24 56

/-- `TypeCode() = Payload()[55:51]` (R106). -/
def typeCode (f : Frame) : BitVec 5 := (payload f).extractLsb' 51 5

/-- `Kind(tc)`, the dispatch (R56, R108). -/
def kindOf (tc : BitVec 5) : MessageKind :=
  let n := tc.toNat
  if 1 ≤ n ∧ n ≤ 4 then .ident
  else if (9 ≤ n ∧ n ≤ 18) ∨ (20 ≤ n ∧ n ≤ 22) then .position
  else if n = 19 then .velocity
  else .noMessage

/-- What FRM.CHK does with a full record whose frame is `c`: SCNT goes to 0, and the frame becomes the one in FR if it
is valid, else no frame is left (R110). -/
def State.receiveFrame (s : State) (ts : Word64) (c : Frame) : State :=
  if validate s.poly c then { s with scnt := 0, frTs := ts, frB := c, frv := true }.respond .ok 1
  else { s with scnt := 0, frv := false }.respond .ok 0

/-- The frame `c` as the frame of the staged record, consumed by FRM.CHK: E_STAGE unless 22 bytes are staged, and the
timestamp is that of the record (R110). -/
def State.checkFrame (s : State) (c : Frame) : Outcome :=
  s.command (if s.scnt.val ≠ Config.recordBytes then .next (s.raise .stage)
    else .next (s.receiveFrame (recordTimestamp s.stg) c))

/-! ### The commands -/

/-- FRM.PUTB x (R109). -/
def execFrmPutb (x : Byte) (s : State) : Outcome :=
  s.command (if h : s.scnt.val < 22 then
      .next ({ s with stg := setStagedByte s.stg s.scnt.val x, scnt := ⟨s.scnt.val + 1, by omega⟩ }.respond .ok 0)
    else .next (s.raise .stage))

/-- FRM.CHK (R110). -/
def execFrmChk (s : State) : Outcome := s.checkFrame (recordFrame s.stg)

/-- FRM.DF (R111). -/
def execFrmDf (s : State) : Outcome := s.answerFromFrame (zext64 (downlinkFormat s.frB))

/-- FRM.ICAO (R112). -/
def execFrmIcao (s : State) : Outcome := s.answerFromFrame (zext64 (icaoAddress s.frB))

/-- FRM.ME (R113). -/
def execFrmMe (s : State) : Outcome := s.answerFromFrame (zext64 (payload s.frB))

/-- FRM.TC (R114). -/
def execFrmTc (s : State) : Outcome := s.answerFromFrame (zext64 (typeCode s.frB))

/-- FRM.KIND (R115). -/
def execFrmKind (s : State) : Outcome := s.answerFromFrame (kindOf (typeCode s.frB)).code

/-- FRM.TS (R116). -/
def execFrmTs (s : State) : Outcome := s.answerFromFrame s.frTs

/-- FRM.BYTE k (R117). -/
def execFrmByte (k : Nat) (s : State) : Outcome :=
  s.command (match s.frameByte k with
    | .ok v => .next (s.respond .ok (zext64 v))
    | .error e => .next (s.raise e))

end Sys2Proof.Machine
end

