-- ==== Sys2Proof/Machine/Window.lean ====
section
/-! DEFINITION. Unit U2, the five window commands (41_window.md R79 to R83). `Advance`, `AdvanceBy` and `WinRead` are in
Machine/Ops.lean. -/

namespace Sys2Proof.Machine

/-- WIN.ADV from the point where it pulls its item, also when it waited for it (R79, R165). -/
def runAdv (s : State) : Outcome :=
  (advance s).resolve (fun s' => .next (s'.respond .ok 0)) (fun _ s' => .next { s' with busy := some .adv })

/-- WIN.ADV (R79). -/
def execWinAdv (s : State) : Outcome := s.command (runAdv s)

/-- WIN.ADVN with `left` operations still to perform (R80, R165). -/
def runAdvN (left : Nat) (s : State) : Outcome :=
  (advanceBy left s).resolve (fun s' => .next (s'.respond .ok 0))
    (fun rest s' => .next { s' with busy := some (.advN rest) })

/-- WIN.ADVN n (R80). -/
def execWinAdvn (n : Nat) (s : State) : Outcome := s.command (runAdvN n s)

/-- WIN.GET k (R81). RESULT has 64 bits, and for PW > 64, which R5 does not exclude, the spec gives `zext_64` of a sample
no meaning: there the model answers the sample modulo 2^64 (DESIGN CHOICE, unsafe, log entry 15). Up to PW = 64, the
default 35 among them, the answer is the sample. -/
def execWinGet (k : Nat) (s : State) : Outcome :=
  s.command (match s.winRead k with
    | .ok v => .next (s.respond .ok (BitVec.ofNat 64 v))
    | .error e => .next (s.raise e))

/-- WIN.POS (R82). -/
def execWinPos (s : State) : Outcome := s.command (.next (s.respond .ok s.pos))

/-- WIN.FULL (R83). -/
def execWinFull (s : State) : Outcome := s.command (.next (s.respond .ok (if s.full then 1 else 0)))

end Sys2Proof.Machine
end

