-- ==== Sys2Proof/Machine/Control.lean ====
section
/-! DEFINITION. What stands between port C and the meanings: accepting a command word, finding the row it runs, going on
with a command that waited for port S, and putting a code where the next step takes it (30_encoding.md R44, R48;
60_exceptions.md R156, R165). -/

namespace Sys2Proof.Machine

/-- The word of FRM.CHK (R45). -/
def chkWord : CommandWord := 0x41000000#32

/-- The state in which the word at the head of port C has been accepted and not yet answered (R42, R47). -/
def State.accept (s : State) (rest : List CommandWord) : State := { s with portC := rest, portR := none }

/-- The row a command word runs. A word runs the command it decodes to (R44), except that FRM.CHK with a full record
whose frame has downlink format 17 runs the frame row that frame matches (R56, R110): this is how a frame row is
fetched. -/
def State.fetch (s : State) (w : CommandWord) : Except Illegal Instr :=
  match decodeCommand w with
  | .ok .frmChk =>
    if s.scnt.val = Config.recordBytes then
      match decodeFrame (recordFrame s.stg) with
      | .ok i => .ok i
      | .error _ => .ok .frmChk
    else .ok .frmChk
  | other => other

/-- Going on with a command that waits for port S: it pulls again, and waits again if there is still no item (R33,
R165). -/
def resume : Busy → State → Outcome
  | .adv, s => runAdv s
  | .advN left, s => runAdvN left s
  | .demFill, s => demFill s
  | .demStep prev, s => demMove prev s
  | .demSkip left, s => demSkip left s

/-- `s` with a code put where the next step takes it. A 32-bit code is the next word on port C. A 112-bit code is the
frame of a full record in the staging buffer, and FRM.CHK is the next word. -/
def State.placeCode (s : State) (nbits w : Nat) : State :=
  if nbits = 112 then
    { s with
      stg := recordOf (recordTimestamp s.stg) (BitVec.ofNat 112 w), scnt := 22, rst := false, busy := none,
      portC := chkWord :: s.portC }
  else { s with rst := false, busy := none, portC := BitVec.ofNat 32 w :: s.portC }

end Sys2Proof.Machine
end

