-- ==== Sys2Proof/Machine/FrameRows.lean ====
section
/-! DEFINITION. The thirty-two frame rows of the opcode table (30_encoding.md R49, R56). A frame enters the parser as the
frame of a staged archive record, by FRM.CHK (44_frame_parser.md R100, R110); so the meaning of a row is what FRM.CHK
does with the record whose frame is the row's: it is validated (downlink format 17 is the row's own, the residue is
tested), put into FR with the record's timestamp if it is valid, and answered 1 or 0. The kind of its message is then
what FRM.KIND answers (R108, R115). See entry 3 of the assumption log. -/

namespace Sys2Proof.Machine

/-- FRAME.TC0.NONE (R56, R110). -/
def execFrameTc0None (c : BitVec 3) (a : BitVec 24) (m : BitVec 51) (p : BitVec 24) (s : State) : Outcome :=
  s.checkFrame (rowFrame 0#5 c a m p)

/-- FRAME.TC1.IDENT (R56, R110). -/
def execFrameTc1Ident (c : BitVec 3) (a : BitVec 24) (m : BitVec 51) (p : BitVec 24) (s : State) : Outcome :=
  s.checkFrame (rowFrame 1#5 c a m p)

/-- FRAME.TC2.IDENT (R56, R110). -/
def execFrameTc2Ident (c : BitVec 3) (a : BitVec 24) (m : BitVec 51) (p : BitVec 24) (s : State) : Outcome :=
  s.checkFrame (rowFrame 2#5 c a m p)

/-- FRAME.TC3.IDENT (R56, R110). -/
def execFrameTc3Ident (c : BitVec 3) (a : BitVec 24) (m : BitVec 51) (p : BitVec 24) (s : State) : Outcome :=
  s.checkFrame (rowFrame 3#5 c a m p)

/-- FRAME.TC4.IDENT (R56, R110). -/
def execFrameTc4Ident (c : BitVec 3) (a : BitVec 24) (m : BitVec 51) (p : BitVec 24) (s : State) : Outcome :=
  s.checkFrame (rowFrame 4#5 c a m p)

/-- FRAME.TC5.NONE (R56, R110). -/
def execFrameTc5None (c : BitVec 3) (a : BitVec 24) (m : BitVec 51) (p : BitVec 24) (s : State) : Outcome :=
  s.checkFrame (rowFrame 5#5 c a m p)

/-- FRAME.TC6.NONE (R56, R110). -/
def execFrameTc6None (c : BitVec 3) (a : BitVec 24) (m : BitVec 51) (p : BitVec 24) (s : State) : Outcome :=
  s.checkFrame (rowFrame 6#5 c a m p)

/-- FRAME.TC7.NONE (R56, R110). -/
def execFrameTc7None (c : BitVec 3) (a : BitVec 24) (m : BitVec 51) (p : BitVec 24) (s : State) : Outcome :=
  s.checkFrame (rowFrame 7#5 c a m p)

/-- FRAME.TC8.NONE (R56, R110). -/
def execFrameTc8None (c : BitVec 3) (a : BitVec 24) (m : BitVec 51) (p : BitVec 24) (s : State) : Outcome :=
  s.checkFrame (rowFrame 8#5 c a m p)

/-- FRAME.TC9.POSITION (R56, R110). -/
def execFrameTc9Position (c : BitVec 3) (a : BitVec 24) (m : BitVec 51) (p : BitVec 24) (s : State) : Outcome :=
  s.checkFrame (rowFrame 9#5 c a m p)

/-- FRAME.TC10.POSITION (R56, R110). -/
def execFrameTc10Position (c : BitVec 3) (a : BitVec 24) (m : BitVec 51) (p : BitVec 24) (s : State) : Outcome :=
  s.checkFrame (rowFrame 10#5 c a m p)

/-- FRAME.TC11.POSITION (R56, R110). -/
def execFrameTc11Position (c : BitVec 3) (a : BitVec 24) (m : BitVec 51) (p : BitVec 24) (s : State) : Outcome :=
  s.checkFrame (rowFrame 11#5 c a m p)

/-- FRAME.TC12.POSITION (R56, R110). -/
def execFrameTc12Position (c : BitVec 3) (a : BitVec 24) (m : BitVec 51) (p : BitVec 24) (s : State) : Outcome :=
  s.checkFrame (rowFrame 12#5 c a m p)

/-- FRAME.TC13.POSITION (R56, R110). -/
def execFrameTc13Position (c : BitVec 3) (a : BitVec 24) (m : BitVec 51) (p : BitVec 24) (s : State) : Outcome :=
  s.checkFrame (rowFrame 13#5 c a m p)

/-- FRAME.TC14.POSITION (R56, R110). -/
def execFrameTc14Position (c : BitVec 3) (a : BitVec 24) (m : BitVec 51) (p : BitVec 24) (s : State) : Outcome :=
  s.checkFrame (rowFrame 14#5 c a m p)

/-- FRAME.TC15.POSITION (R56, R110). -/
def execFrameTc15Position (c : BitVec 3) (a : BitVec 24) (m : BitVec 51) (p : BitVec 24) (s : State) : Outcome :=
  s.checkFrame (rowFrame 15#5 c a m p)

/-- FRAME.TC16.POSITION (R56, R110). -/
def execFrameTc16Position (c : BitVec 3) (a : BitVec 24) (m : BitVec 51) (p : BitVec 24) (s : State) : Outcome :=
  s.checkFrame (rowFrame 16#5 c a m p)

/-- FRAME.TC17.POSITION (R56, R110). -/
def execFrameTc17Position (c : BitVec 3) (a : BitVec 24) (m : BitVec 51) (p : BitVec 24) (s : State) : Outcome :=
  s.checkFrame (rowFrame 17#5 c a m p)

/-- FRAME.TC18.POSITION (R56, R110). -/
def execFrameTc18Position (c : BitVec 3) (a : BitVec 24) (m : BitVec 51) (p : BitVec 24) (s : State) : Outcome :=
  s.checkFrame (rowFrame 18#5 c a m p)

/-- FRAME.TC19.VELOCITY (R56, R110). -/
def execFrameTc19Velocity (c : BitVec 3) (a : BitVec 24) (m : BitVec 51) (p : BitVec 24) (s : State) : Outcome :=
  s.checkFrame (rowFrame 19#5 c a m p)

/-- FRAME.TC20.POSITION (R56, R110). -/
def execFrameTc20Position (c : BitVec 3) (a : BitVec 24) (m : BitVec 51) (p : BitVec 24) (s : State) : Outcome :=
  s.checkFrame (rowFrame 20#5 c a m p)

/-- FRAME.TC21.POSITION (R56, R110). -/
def execFrameTc21Position (c : BitVec 3) (a : BitVec 24) (m : BitVec 51) (p : BitVec 24) (s : State) : Outcome :=
  s.checkFrame (rowFrame 21#5 c a m p)

/-- FRAME.TC22.POSITION (R56, R110). -/
def execFrameTc22Position (c : BitVec 3) (a : BitVec 24) (m : BitVec 51) (p : BitVec 24) (s : State) : Outcome :=
  s.checkFrame (rowFrame 22#5 c a m p)

/-- FRAME.TC23.NONE (R56, R110). -/
def execFrameTc23None (c : BitVec 3) (a : BitVec 24) (m : BitVec 51) (p : BitVec 24) (s : State) : Outcome :=
  s.checkFrame (rowFrame 23#5 c a m p)

/-- FRAME.TC24.NONE (R56, R110). -/
def execFrameTc24None (c : BitVec 3) (a : BitVec 24) (m : BitVec 51) (p : BitVec 24) (s : State) : Outcome :=
  s.checkFrame (rowFrame 24#5 c a m p)

/-- FRAME.TC25.NONE (R56, R110). -/
def execFrameTc25None (c : BitVec 3) (a : BitVec 24) (m : BitVec 51) (p : BitVec 24) (s : State) : Outcome :=
  s.checkFrame (rowFrame 25#5 c a m p)

/-- FRAME.TC26.NONE (R56, R110). -/
def execFrameTc26None (c : BitVec 3) (a : BitVec 24) (m : BitVec 51) (p : BitVec 24) (s : State) : Outcome :=
  s.checkFrame (rowFrame 26#5 c a m p)

/-- FRAME.TC27.NONE (R56, R110). -/
def execFrameTc27None (c : BitVec 3) (a : BitVec 24) (m : BitVec 51) (p : BitVec 24) (s : State) : Outcome :=
  s.checkFrame (rowFrame 27#5 c a m p)

/-- FRAME.TC28.NONE (R56, R110). -/
def execFrameTc28None (c : BitVec 3) (a : BitVec 24) (m : BitVec 51) (p : BitVec 24) (s : State) : Outcome :=
  s.checkFrame (rowFrame 28#5 c a m p)

/-- FRAME.TC29.NONE (R56, R110). -/
def execFrameTc29None (c : BitVec 3) (a : BitVec 24) (m : BitVec 51) (p : BitVec 24) (s : State) : Outcome :=
  s.checkFrame (rowFrame 29#5 c a m p)

/-- FRAME.TC30.NONE (R56, R110). -/
def execFrameTc30None (c : BitVec 3) (a : BitVec 24) (m : BitVec 51) (p : BitVec 24) (s : State) : Outcome :=
  s.checkFrame (rowFrame 30#5 c a m p)

/-- FRAME.TC31.NONE (R56, R110). -/
def execFrameTc31None (c : BitVec 3) (a : BitVec 24) (m : BitVec 51) (p : BitVec 24) (s : State) : Outcome :=
  s.checkFrame (rowFrame 31#5 c a m p)

end Sys2Proof.Machine
end

