-- ==== Sys2Proof/Machine/System.lean ====
section
/-! DEFINITION. The one system command, SYS.STAT (45_system.md R118). -/

namespace Sys2Proof.Machine

/-- SYS.STAT: the one command a faulted block executes (R118, R155). -/
def execSysStat (s : State) : Outcome := .next (s.respond .ok (zext64 s.statusView))

end Sys2Proof.Machine
end

