-- ==== Sys2Proof/Machine/Dispatch.lean ====
section
/-! DEFINITION. One arm for each constructor of Instr, one direct call of its meaning. -/

namespace Sys2Proof.Machine

def exec (i : Instr) (s : State) : Host.Outcome State Fault Refusal :=
  match i with
  | .sysStat => Sys2Proof.Machine.execSysStat s
  | .crcClr => Sys2Proof.Machine.execCrcClr s
  | .crcByte x => Sys2Proof.Machine.execCrcByte x s
  | .crcRd => Sys2Proof.Machine.execCrcRd s
  | .crcTab t => Sys2Proof.Machine.execCrcTab t s
  | .winAdv => Sys2Proof.Machine.execWinAdv s
  | .winAdvn n => Sys2Proof.Machine.execWinAdvn n s
  | .winGet k => Sys2Proof.Machine.execWinGet k s
  | .winPos => Sys2Proof.Machine.execWinPos s
  | .winFull => Sys2Proof.Machine.execWinFull s
  | .demNext => Sys2Proof.Machine.execDemNext s
  | .frmPutb x => Sys2Proof.Machine.execFrmPutb x s
  | .frmChk => Sys2Proof.Machine.execFrmChk s
  | .frmDf => Sys2Proof.Machine.execFrmDf s
  | .frmIcao => Sys2Proof.Machine.execFrmIcao s
  | .frmMe => Sys2Proof.Machine.execFrmMe s
  | .frmTc => Sys2Proof.Machine.execFrmTc s
  | .frmKind => Sys2Proof.Machine.execFrmKind s
  | .frmTs => Sys2Proof.Machine.execFrmTs s
  | .frmByte k => Sys2Proof.Machine.execFrmByte k s
  | .frameTc0None c a m p => Sys2Proof.Machine.execFrameTc0None c a m p s
  | .frameTc1Ident c a m p => Sys2Proof.Machine.execFrameTc1Ident c a m p s
  | .frameTc2Ident c a m p => Sys2Proof.Machine.execFrameTc2Ident c a m p s
  | .frameTc3Ident c a m p => Sys2Proof.Machine.execFrameTc3Ident c a m p s
  | .frameTc4Ident c a m p => Sys2Proof.Machine.execFrameTc4Ident c a m p s
  | .frameTc5None c a m p => Sys2Proof.Machine.execFrameTc5None c a m p s
  | .frameTc6None c a m p => Sys2Proof.Machine.execFrameTc6None c a m p s
  | .frameTc7None c a m p => Sys2Proof.Machine.execFrameTc7None c a m p s
  | .frameTc8None c a m p => Sys2Proof.Machine.execFrameTc8None c a m p s
  | .frameTc9Position c a m p => Sys2Proof.Machine.execFrameTc9Position c a m p s
  | .frameTc10Position c a m p => Sys2Proof.Machine.execFrameTc10Position c a m p s
  | .frameTc11Position c a m p => Sys2Proof.Machine.execFrameTc11Position c a m p s
  | .frameTc12Position c a m p => Sys2Proof.Machine.execFrameTc12Position c a m p s
  | .frameTc13Position c a m p => Sys2Proof.Machine.execFrameTc13Position c a m p s
  | .frameTc14Position c a m p => Sys2Proof.Machine.execFrameTc14Position c a m p s
  | .frameTc15Position c a m p => Sys2Proof.Machine.execFrameTc15Position c a m p s
  | .frameTc16Position c a m p => Sys2Proof.Machine.execFrameTc16Position c a m p s
  | .frameTc17Position c a m p => Sys2Proof.Machine.execFrameTc17Position c a m p s
  | .frameTc18Position c a m p => Sys2Proof.Machine.execFrameTc18Position c a m p s
  | .frameTc19Velocity c a m p => Sys2Proof.Machine.execFrameTc19Velocity c a m p s
  | .frameTc20Position c a m p => Sys2Proof.Machine.execFrameTc20Position c a m p s
  | .frameTc21Position c a m p => Sys2Proof.Machine.execFrameTc21Position c a m p s
  | .frameTc22Position c a m p => Sys2Proof.Machine.execFrameTc22Position c a m p s
  | .frameTc23None c a m p => Sys2Proof.Machine.execFrameTc23None c a m p s
  | .frameTc24None c a m p => Sys2Proof.Machine.execFrameTc24None c a m p s
  | .frameTc25None c a m p => Sys2Proof.Machine.execFrameTc25None c a m p s
  | .frameTc26None c a m p => Sys2Proof.Machine.execFrameTc26None c a m p s
  | .frameTc27None c a m p => Sys2Proof.Machine.execFrameTc27None c a m p s
  | .frameTc28None c a m p => Sys2Proof.Machine.execFrameTc28None c a m p s
  | .frameTc29None c a m p => Sys2Proof.Machine.execFrameTc29None c a m p s
  | .frameTc30None c a m p => Sys2Proof.Machine.execFrameTc30None c a m p s
  | .frameTc31None c a m p => Sys2Proof.Machine.execFrameTc31None c a m p s

end Sys2Proof.Machine
end

