-- ==== Sys2Proof/Machine/Step.lean ====
section
/-! DEFINITION. One step of the block: reset while RST is asserted, else going on with a command that waits, else the
next command of port C, else nothing (00_scope.md R4; 60_exceptions.md R156, R165; 70_reset_and_hazards.md R166,
R169). A step is one whole command unless port S makes it wait. -/

namespace Sys2Proof.Machine

/-- One accepted command word: the row it runs, or an illegal word (R156). -/
def runWord (w : CommandWord) (s : State) : Host.Outcome State Fault Refusal :=
  match s.fetch w with
  | .ok i => exec i s
  | .error _ => s.illegalWord

/-- One step. -/
def step (s : State) : Host.Outcome State Fault Refusal :=
  if s.rst then .next s.inReset
  else
    match s.busy with
    | some b => resume b s
    | none =>
      match s.portC with
      | [] => .next s
      | w :: rest => runWord w (s.accept rest)

/-- `s` with the code of `nbits` bits and value `w` where the next step takes it (see `State.placeCode`). -/
def State.withFetchWord (s : State) (nbits w : Nat) : State := s.placeCode nbits w

end Sys2Proof.Machine
end

