-- ==== Sys2Proof/Machine/Assembler.lean ====
section
/-! DEFINITION. The written form of a command and the four pseudo-operations (30_encoding.md R60, R61). Neither carries
semantics of its own. -/

namespace Sys2Proof.Machine

/-! ### The pseudo-operations (R61): a fixed expansion into commands each -/

/-- `CRC.RUN h`. -/
def crcRun (h : List Byte) : List Instr := .crcClr :: h.map .crcByte ++ [.crcRd]

/-- `CRC.GEN h`. -/
def crcGen (h : List Byte) : List Instr :=
  .crcClr :: h.map .crcByte ++ [.crcByte 0, .crcByte 0, .crcByte 0, .crcRd]

/-- `FRM.REC h`, for h of exactly 22 bytes. -/
def frmRec (h : List Byte) : List Instr := h.map .frmPutb ++ [.frmChk]

/-- `WIN.FILL`. -/
def winFill : List Instr := [.winAdvn 1200]

/-! ### The written form (R60) -/

/-- A decimal digit. -/
def decimalDigit (c : Char) : Option Nat :=
  if '0' ≤ c ∧ c ≤ '9' then some (c.toNat - '0'.toNat) else none

/-- A number in the given base, most significant digit first, after the digits already read into `acc`. -/
def numberFrom (base : Nat) (digit : Char → Option Nat) : Nat → List Char → Option Nat
  | acc, [] => some acc
  | acc, c :: rest =>
    match digit c with
    | some d => numberFrom base digit (acc * base + d) rest
    | none => none

/-- An operand: a decimal number, or `0x` followed by hexadecimal digits. -/
def operandOf : List Char → Option Nat
  | [] => none
  | ['0', 'x'] => none
  | '0' :: 'x' :: digits => numberFrom 16 (fun c => (hexValue c).map BitVec.toNat) 0 digits
  | digits => numberFrom 10 decimalDigit 0 digits

/-- A command with an operand, from its mnemonic and the number written. -/
def commandWithOperand (mnemonic : String) (n : Nat) : Option Instr :=
  let byte (f : Byte → Instr) : Option Instr := if n < 256 then some (f (BitVec.ofNat 8 n)) else none
  let half (f : Nat → Instr) : Option Instr := if n < 65536 then some (f n) else none
  match mnemonic with
  | "CRC.BYTE" => byte .crcByte
  | "CRC.TAB" => byte .crcTab
  | "WIN.ADVN" => half .winAdvn
  | "WIN.GET" => half .winGet
  | "FRM.PUTB" => byte .frmPutb
  | "FRM.BYTE" => half .frmByte
  | _ => none

/-- A command or pseudo-operation without an operand. -/
def plainCommand (mnemonic : String) : Option (List Instr) :=
  match mnemonic with
  | "SYS.STAT" => some [.sysStat]
  | "CRC.CLR" => some [.crcClr]
  | "CRC.RD" => some [.crcRd]
  | "WIN.ADV" => some [.winAdv]
  | "WIN.POS" => some [.winPos]
  | "WIN.FULL" => some [.winFull]
  | "DEM.NEXT" => some [.demNext]
  | "FRM.CHK" => some [.frmChk]
  | "FRM.DF" => some [.frmDf]
  | "FRM.ICAO" => some [.frmIcao]
  | "FRM.ME" => some [.frmMe]
  | "FRM.TC" => some [.frmTc]
  | "FRM.KIND" => some [.frmKind]
  | "FRM.TS" => some [.frmTs]
  | "WIN.FILL" => some winFill
  | _ => none

/-- A pseudo-operation whose operand is a byte sequence in hexadecimal. -/
def pseudoWithBytes (mnemonic : String) (h : List Char) : Option (List Instr) :=
  match bytesOfHex h with
  | none => none
  | some bytes =>
    match mnemonic with
    | "CRC.RUN" => some (crcRun bytes)
    | "CRC.GEN" => some (crcGen bytes)
    | "FRM.REC" => if bytes.length = Config.recordBytes then some (frmRec bytes) else none
    | _ => none

/-- A line without its comment and without the blanks before the comment. -/
def codeOfLine (line : List Char) : List Char :=
  ((line.takeWhile (· ≠ ';')).reverse.dropWhile (· = ' ')).reverse

/-- One line of written commands: the mnemonic in capitals and, where the form has an operand, one space and the
operand (R60); a pseudo-operation gives its expansion (R61). R61 lets h have zero digits and does not say how that is
written: the model reads `CRC.RUN` and `CRC.GEN` alone on the line, with or without blanks after them, as h empty (DESIGN
CHOICE, safe, log entry 16). -/
def assembleLine (line : List Char) : Option (List Instr) :=
  let code := codeOfLine line
  let mnemonic := String.ofList (code.takeWhile (· ≠ ' '))
  match code.dropWhile (· ≠ ' ') with
  | [] => plainCommand mnemonic <|> pseudoWithBytes mnemonic []
  | _ :: operand =>
    match (operandOf operand).bind (commandWithOperand mnemonic) with
    | some i => some [i]
    | none => pseudoWithBytes mnemonic operand

end Sys2Proof.Machine
end

