-- ==== Sys2Proof/Machine/Ports.lean ====
section
/-! DEFINITION. What the environment does to the ports between two steps (00_scope.md R4, 10_state.md R25). The sample
source owns port S, the host owns RST and port C and reads port R. No step of the block does any of this. -/

namespace Sys2Proof.Machine

/-- The host presents one more command word on port C, after those it has already presented (R25, R42). -/
def State.present (s : State) (w : CommandWord) : State := { s with portC := s.portC ++ [w] }

/-- The source has more samples ready. After the end mark it delivers nothing any more: a stream does not resume (R33). -/
def State.deliver (s : State) (samples : List Nat) : State :=
  if s.srcEnded then s else { s with portS := s.portS ++ samples }

/-- The source signals the end of the stream; the mark is sticky (R33). -/
def State.endStream (s : State) : State := { s with srcEnded := true }

/-- The host asserts RST (R166). -/
def State.assertReset (s : State) : State := { s with rst := true }

/-- The host releases RST: "When RST is released the block is in the reset state of rule R167", also if it was asserted
for so short a time that no step came between (R166). -/
def State.releaseReset (s : State) : State := if s.rst then { s.inReset with rst := false } else s

end Sys2Proof.Machine
end

