-- ==== Sys2Proof/Safety.lean ====
section
/-! DEFINITION. What counts as a good state, a good run and a run inside the domain of the spec, in the terms the
statements use. -/

namespace Sys2Proof.Machine

/-- A waiting command that can be one: it still has something to do in this state (43_frame_sync.md R96 to R98,
60_exceptions.md R165). -/
def Busy.legal (s : State) : Busy → Prop
  | .adv => True
  | .advN left => 1 ≤ left ∧ left ≤ 65535
  | .demFill => s.len < s.capacity
  | .demStep prev => s.len = s.capacity ∧ prev = s.peakSum
  | .demSkip left => 1 ≤ left ∧ left ≤ Config.messageSamples ∧ s.frv = true

/-- The invariant of the block. -/
structure State.Inv (s : State) : Prop where
  /-- W is legal (R22). -/
  capacity_legal : Config.minCapacity ≤ s.capacity
  /-- The window holds at most W samples (R13, R73). -/
  len_le_capacity : s.len ≤ s.capacity
  /-- LEN ≤ POS (R73). -/
  len_le_pos : s.len ≤ s.pos.toNat
  /-- POS is in the domain of the spec (R8, R14). -/
  pos_in_domain : s.pos.toNat < Config.positionLimit
  /-- Every retained sample has PW bits (R6, R13). -/
  samples_fit : ∀ v ∈ s.wbuf, v < 2 ^ s.sampleWidth
  /-- Once EOS = 1 the source delivers nothing (R15, R33). -/
  eos_source : s.eos = true → s.portS = [] ∧ s.srcEnded = true
  /-- Once EOS = 1 the window is not full, for ever (R16). -/
  eos_not_full : s.eos = true → s.len < s.capacity
  /-- FRV = 1 means FR holds a valid frame (R18, R100). -/
  frame_valid : s.frv = true → validate s.poly s.frB = true
  /-- ERR is 0 or one of the four causes (R20, R152). -/
  err_code : s.err.toNat ≤ 4
  /-- A waiting command has not been answered, has not faulted, and has something to do. -/
  busy_legal : ∀ b, s.busy = some b → s.err = 0 ∧ s.eos = false ∧ s.portR = none ∧ b.legal s

/-- The samples ready on port S keep the contract of the environment, and consuming all of them leaves POS in the
domain (R8, R14; 93_implementation_defined.md U7, U13). -/
def State.InDomain (s : State) : Prop :=
  (∀ v ∈ s.portS, v < 2 ^ s.sampleWidth) ∧ s.pos.toNat + s.portS.length < Config.positionLimit

/-- Port S never makes a command wait: its whole stream is given (R33, R165). -/
def State.WholeStream (s : State) : Prop := s.srcEnded = true

/-- Nothing is in the way of the next command of port C: RST is released and no command waits. -/
def State.Ready (s : State) : Prop := s.rst = false ∧ s.busy = none

/-- The commands of a list executed one after another, stopping at a fault or a refusal (R42). -/
def execAll : List Instr → State → Outcome
  | [], s => .next s
  | i :: rest, s =>
    match exec i s with
    | .next s' => execAll rest s'
    | .fault f => .fault f
    | .refused r => .refused r

/-- A run of the block and its environment: steps of the block and actions of the environment in any order (R4). -/
inductive Reachable : State → State → Prop where
  | refl (s : State) : Reachable s s
  | step {s t u : State} : Reachable s t → Sys2Proof.Machine.step t = .next u → Reachable s u
  | present {s t : State} (w : CommandWord) : Reachable s t → Reachable s (t.present w)
  | deliver {s t : State} (samples : List Nat) : Reachable s t → Reachable s (t.deliver samples)
  | endStream {s t : State} : Reachable s t → Reachable s t.endStream
  | assertReset {s t : State} : Reachable s t → Reachable s t.assertReset
  | releaseReset {s t : State} : Reachable s t → Reachable s t.releaseReset

/-- A run has gone well when ERR is 0 at its end (R155). -/
def State.healthy (s : State) : Bool := !s.faulted

end Sys2Proof.Machine
end

