-- ==== Sys2Proof/Certificates/Slice0/Obligations.lean ====
section
/-! DEFINITION. The statements for the provers. Each docstring names the rule or the sentence of the spec it formalises.
Nothing is proved here. -/

open Sys2Proof Sys2Proof.Machine

namespace Sys2Proof.Statements

/-! ### Tables and functions the statements speak about -/

/-- The opcodes of R45 whose operand form is `none`. -/
def noneOpcodes : List Byte :=
  [0x01, 0x10, 0x12, 0x20, 0x23, 0x24, 0x30, 0x41, 0x42, 0x43, 0x44, 0x45, 0x46, 0x47]

/-- The opcodes of R45 whose operand form is `imm8`. -/
def imm8Opcodes : List Byte := [0x11, 0x13, 0x40]

/-- The opcodes of R45 whose operand form is `imm16`. -/
def imm16Opcodes : List Byte := [0x21, 0x22, 0x48]

/-- A word is illegal in the sense of R48. -/
def illegalWord (w : CommandWord) : Prop :=
  opField w ∉ noneOpcodes ++ imm8Opcodes ++ imm16Opcodes ∨ rsvField w ≠ 0 ∨
    (opField w ∈ noneOpcodes ∧ immField w ≠ 0) ∨ (opField w ∈ imm8Opcodes ∧ w.extractLsb' 8 8 ≠ 0)

/-- The table of R56, type code 0 first. -/
def kindTable : List MessageKind :=
  [.noMessage, .ident, .ident, .ident, .ident, .noMessage, .noMessage, .noMessage, .noMessage, .position, .position,
    .position, .position, .position, .position, .position, .position, .position, .position, .velocity, .position,
    .position, .position, .noMessage, .noMessage, .noMessage, .noMessage, .noMessage, .noMessage, .noMessage,
    .noMessage, .noMessage]

/-- Is the row a command, and not a frame row. -/
def isCommand (i : Instr) : Prop := ∃ w, encode i = .command w

/-- Is the row a frame row. -/
def isFrameRow (i : Instr) : Prop := ∃ f, encode i = .frame f

/-- The seven accessors of R158. -/
def isAccessor : Instr → Prop
  | .frmDf | .frmIcao | .frmMe | .frmTc | .frmKind | .frmTs | .frmByte _ => True
  | _ => False

/-- The commands that call `PullSample` (R165). -/
def pullsSamples : Instr → Prop
  | .winAdv | .winAdvn _ | .demNext => True
  | _ => False

/-- The bytes the CRC.BYTE commands of a sequence feed. -/
def crcBytesOf : List Instr → List Byte
  | [] => []
  | .crcByte x :: rest => x :: crcBytesOf rest
  | _ :: rest => crcBytesOf rest

/-- The bits of a value, most significant first. -/
def bitsOf {n : Nat} (v : BitVec n) : List Bool := (List.range n).map v.getMsbD

/-- A bit sequence read as a polynomial over the field of two elements, the first bit the highest coefficient. -/
noncomputable def polynomialOf (bits : List Bool) : Polynomial (ZMod 2) :=
  bits.foldl (fun p b => p * Polynomial.X + (if b then 1 else 0)) 0

/-- The generator G(x) of R62: x^24 and the 24 coefficients of POLY. -/
noncomputable def generator (poly : Word24) : Polynomial (ZMod 2) := Polynomial.X ^ 24 + polynomialOf (bitsOf poly)

/-- The sample at offset j of a synthetic frame: pulses of height `high` at the four preamble offsets and in the first
half of the slot of every 1 bit and the second half of the slot of every 0 bit, `low` everywhere else
(95_test_vectors.md section 4, `Pattern(F, A, c)`). -/
def patternAt (f : Frame) (high low j : Nat) : Nat :=
  if j ∈ Config.peakOffsets then high
  else if 80 ≤ j ∧ (j - 80) % 10 = 0 ∧ f.getMsbD ((j - 80) / 10) then high
  else if 85 ≤ j ∧ (j - 85) % 10 = 0 ∧ !f.getMsbD ((j - 85) / 10) then high
  else low

/-- The 1200 samples of a synthetic frame. -/
def pattern (f : Frame) (high low : Nat) : List Nat := (List.range 1200).map (patternAt f high low)

/-- The word of an opcode with an operand that fits 16 bits (R46). -/
abbrev word16 (op : Nat) (n : Nat) : CommandWord := BitVec.ofNat 32 (op * 2 ^ 24 + n)

/-- The state after the command being executed is answered with OK and a result, all else as it was. -/
abbrev answered (s : State) (result : Word64) : State := { s with portR := some ⟨.ok, result⟩, busy := none }

/-- The state after the command being executed has raised a fault in a block that was not faulted. -/
abbrev faultedWith (s : State) (e : Cause) : State :=
  { s with err := e.code, portR := some ⟨e.status, 0⟩, busy := none }

end Sys2Proof.Statements

open Sys2Proof.Statements

/-! ### Encoding -/

/-- Decoding the encoding of a well-formed instruction gives it back, for every row and every operand. -/
def Obligations.DecodeOfEncode : Prop :=
  ∀ i : Instr, i.WellFormed → decode (encode i) = .ok i

/-- Every word and every frame that decodes is the encoding of what it decodes to, and that is well-formed: no word is
another word's alias. -/
def Obligations.EncodeOfDecode : Prop :=
  ∀ (code : Code) (i : Instr), decode code = .ok i → encode i = code ∧ i.WellFormed

/-- R48 and R153: a word is rejected exactly when it is illegal; then, and in no state with ERR = 0 otherwise by the
decoder, E_ILLEGAL is raised and nothing is recorded of the word. -/
def Obligations.IllegalWordsRaiseIllegal : Prop :=
  (∀ w : CommandWord, (∃ e, decodeCommand w = .error e) ↔ illegalWord w) ∧
  illegalWord 0x00000000#32 ∧ illegalWord 0xFFFFFFFF#32 ∧
  (∀ (s : State) (w : CommandWord) (rest : List CommandWord),
    s.Ready → s.err = 0 → s.portC = w :: rest → illegalWord w →
      step s = .next (faultedWith { s with portC := rest } .illegal))

/-- Words written out from the encodings of R45, R46 and R49, one or more for each family. -/
def Obligations.WrittenOutCodesDecode : Prop :=
  decodeCommand 0x01000000#32 = .ok .sysStat ∧ decodeCommand 0x1100008D#32 = .ok (.crcByte 0x8D#8) ∧
  decodeCommand 0x220004AF#32 = .ok (.winGet 1199) ∧ decodeCommand 0x30000000#32 = .ok .demNext ∧
  decodeCommand 0x4800000D#32 = .ok (.frmByte 13) ∧
  decodeFrame 0x8D4840D6202CC371C32CE0576098#112
    = .ok (.frameTc4Ident 5#3 0x4840D6#24 0x02CC371C32CE0#51 0x576098#24)

/-! ### A step -/

/-- R44, R156: when nothing is in the way and the word at the head of port C decodes to an instruction, a step is that
instruction executed in the state in which the word has been accepted. -/
def Obligations.StepRunsDecodedCommand : Prop :=
  ∀ (s : State) (w : CommandWord) (rest : List CommandWord) (i : Instr),
    s.Ready → s.portC = w :: rest → decodeCommand w = .ok i →
      step s = exec i { s with portC := rest, portR := none }

/-- FRM.CHK with a full record whose frame matches a row of R56 runs that row: the model's choice of how a frame row is
fetched (log entry 3). -/
def Obligations.StepRunsStagedFrame : Prop :=
  ∀ (s : State) (rest : List CommandWord) (i : Instr),
    s.Ready → s.portC = 0x41000000#32 :: rest → s.scnt.val = 22 → decodeFrame (recordFrame s.stg) = .ok i →
      step s = exec i { s with portC := rest, portR := none }

/-- R155: a faulted block refuses every command with E_FAULTED and changes nothing, except the exact word 0x01000000,
which it executes; and only reset clears ERR. -/
def Obligations.FaultedBlockRefusesAllButStatus : Prop :=
  (∀ (s : State) (w : CommandWord) (rest : List CommandWord),
    s.Ready → s.err ≠ 0 → s.portC = w :: rest →
      step s = .next { s with
        portC := rest,
        portR := some (if w = 0x01000000#32 then ⟨.ok, zext64 s.statusView⟩ else ⟨.eFaulted, 0⟩) }) ∧
  (∀ s t : State, s.rst = false → s.err ≠ 0 → step s = .next t → t.err = s.err) ∧
  (∀ s t : State, s.rst = true → step s = .next t → t.err = 0)

/-- R167: the reset state, and what a host observes of it, in a block with any parameters. -/
def Obligations.ResetStateIsObservable : Prop :=
  State.reset.poly = 0xFFF409#24 ∧ State.reset.capacity = 1200 ∧
  ∀ s : State, s.rst = true → ∃ t, step s = .next t ∧
    t.poly = s.poly ∧ t.capacity = s.capacity ∧ t.crcr = 0 ∧ t.wbuf = [] ∧ t.len = 0 ∧ t.pos = 0 ∧ t.eos = false ∧
    t.frv = false ∧ t.scnt = 0 ∧ t.err = 0 ∧
    (∀ x, exec (.crcTab x) t = .next (answered t (zext64 (tblRead s.poly x)))) ∧
    exec .crcRd t = .next (answered t 0) ∧
    (0 < s.capacity → exec .winFull t = .next (answered t 0) ∧ exec .sysStat t = .next (answered t 0)) ∧
    (∀ k, exec (.winGet k) t = .next (faultedWith t .range)) ∧
    exec .winPos t = .next (answered t 0) ∧
    (∀ i, isAccessor i → exec i t = .next (faultedWith t .noFrame))

/-- R168: reset does not rewind the ports (R25), restarts POS at 0, abandons a command in progress without a response, and
an ended source is still ended: the first `Advance` sets EOS again. -/
def Obligations.ResetKeepsTheStream : Prop :=
  ∀ s : State, s.rst = true → ∃ t, step s = .next t ∧ t.portS = s.portS ∧ t.srcEnded = s.srcEnded ∧ t.portC = s.portC ∧
    t.pos = 0 ∧ t.busy = none ∧ (s.portR = none → t.portR = none) ∧
    (s.srcEnded = true → s.portS = [] → t.err = 0 ∧ exec .winAdv t = .next (answered { t with eos := true } 0))

/-- R169: after reset, and whenever no command is presented, the block is idle. -/
def Obligations.IdleBlockHolds : Prop :=
  ∀ s : State, s.Ready → s.portC = [] → step s = .next s

/-- R165 (a): a command that waits for port S holds until the source takes a step. -/
def Obligations.WaitingCommandHolds : Prop :=
  ∀ (s : State) (b : Busy), s.rst = false → s.busy = some b → b.legal s → s.eos = false → s.portS = [] →
    s.srcEnded = false → step s = .next s

/-- R33, R165: a command that had to wait and then gets more samples, or the end mark, does exactly what it would have
done had they been there when it was issued. -/
def Obligations.WaitingDoesNotChangeTheResult : Prop :=
  ∀ (i : Instr) (s t : State) (b : Busy) (samples : List Nat) (ended : Bool),
    pullsSamples i → s.err = 0 → s.busy = none → exec i s = .next t → t.busy = some b →
      t.portS = [] ∧ t.srcEnded = false ∧
      resume b { t with portS := samples, srcEnded := ended }
        = exec i { s with portS := s.portS ++ samples, srcEnded := ended }

/-- R47: a command is answered exactly once unless it waits for port S; RESULT is 0 with every status but OK, and the
codes 5 to 14 are never produced. -/
def Obligations.EveryCommandIsAnsweredOnce : Prop :=
  ∀ (s t : State) (w : CommandWord) (rest : List CommandWord),
    s.Ready → s.portC = w :: rest → step s = .next t →
      t.portC = rest ∧
      ((∃ r, t.portR = some r ∧ t.busy = none ∧ (r.status ≠ .ok → r.result = 0) ∧
          (r.status.code.toNat ≤ 4 ∨ r.status.code = 15)) ∨
        (t.portR = none ∧ ∃ b, t.busy = some b))

/-! ### The invariant and the domain -/

/-- Every step keeps the invariant of the block. -/
def Obligations.StepKeepsInvariant : Prop :=
  ∀ s t : State, s.Inv → step s = .next t → t.Inv

/-- The reset state has the invariant. -/
def Obligations.ResetHasInvariant : Prop := State.reset.Inv

/-- The environment keeps the invariant. -/
def Obligations.EnvironmentKeepsInvariant : Prop :=
  ∀ s : State, s.Inv →
    (∀ w, (s.present w).Inv) ∧ (∀ samples, (s.deliver samples).Inv) ∧ s.endStream.Inv ∧ s.assertReset.Inv ∧
      s.releaseReset.Inv

/-- From any state with the invariant, every run of the block and its environment stays in the invariant. -/
def Obligations.RunsKeepInvariant : Prop :=
  ∀ s t : State, s.Inv → Reachable s t → t.Inv

/-- Inside the domain of the spec (R8, U7, U13) no step faults or is refused. -/
def Obligations.NoStopInsideTheDomain : Prop :=
  ∀ s : State, s.Inv → s.InDomain → ∃ t, step s = .next t

/-- R165, R99 (d): with the whole stream given and inside the domain, every command presented is answered by one step. -/
def Obligations.WholeStreamCommandsAreAnswered : Prop :=
  ∀ (s : State) (w : CommandWord) (rest : List CommandWord),
    s.Inv → s.InDomain → s.WholeStream → s.Ready → s.portC = w :: rest →
      ∃ t r, step s = .next t ∧ t.portR = some r ∧ t.busy = none ∧ t.portC = rest

/-- Where the model stops, by R8 and R22 and by the treatment "refuse" of U13 (log entries 4, 5 and 6): a sample wider than PW, a position counter about to leave its domain, a
timestamp outside it, and DEM.NEXT with W < 1196. -/
def Obligations.StopsOutsideTheDomain : Prop :=
  (∀ (s : State) (v : Nat) (rest : List Nat), s.err = 0 → s.portS = v :: rest → 2 ^ s.sampleWidth ≤ v →
    exec .winAdv s = .fault .sampleTooWide) ∧
  (∀ (s : State) (v : Nat) (rest : List Nat), s.err = 0 → s.portS = v :: rest → v < 2 ^ s.sampleWidth →
    2 ^ 57 ≤ s.pos.toNat + 1 → exec .winAdv s = .refused .positionOutOfDomain) ∧
  (∀ (s : State) (c : Frame), s.err = 0 → 1196 ≤ s.capacity → s.len = s.capacity → s.demodStep 0 = .accept c →
    2 ^ 57 ≤ s.pos.toNat → exec .demNext s = .refused .positionOutOfDomain) ∧
  (∀ s : State, s.err = 0 → s.capacity < 1196 → exec .demNext s = .refused .windowTooSmall)

/-! ### What a command changes and what it leaves alone -/

/-- R10, R13, R14, R17 to R19, R28: what each command leaves unchanged, for every row and every next state. -/
def Obligations.CommandsTouchOnlyTheirUnit : Prop :=
  ∀ (i : Instr) (s t : State), exec i s = .next t →
    (t.poly = s.poly ∧ t.capacity = s.capacity ∧ t.sampleWidth = s.sampleWidth ∧ t.rst = s.rst ∧ t.portC = s.portC ∧
      t.srcEnded = s.srcEnded) ∧
    ((i ≠ .crcClr ∧ ∀ x, i ≠ .crcByte x) → t.crcr = s.crcr) ∧
    (¬ pullsSamples i → t.wbuf = s.wbuf ∧ t.pos = s.pos ∧ t.eos = s.eos ∧ t.portS = s.portS) ∧
    ((i ≠ .demNext ∧ i ≠ .frmChk ∧ ¬ isFrameRow i) → t.frTs = s.frTs ∧ t.frB = s.frB ∧ t.frv = s.frv) ∧
    (((∀ x, i ≠ .frmPutb x) ∧ i ≠ .frmChk ∧ ¬ isFrameRow i) → t.stg = s.stg ∧ t.scnt = s.scnt)

/-- R151: `raise` changes nothing but ERR, which takes the code only if it was 0, and answers the code with RESULT 0; and
faults are precise: after a fault, an illegal word's included, the state is the state before the command plus ERR and
the answer. -/
def Obligations.FaultsArePrecise : Prop :=
  (∀ (s : State) (e : Cause), s.raise e
    = { s with err := if s.err = 0 then e.code else s.err, portR := some ⟨e.status, 0⟩, busy := none } ∧
      e.status.code = e.code) ∧
  (∀ (i : Instr) (s t : State), s.err = 0 → exec i s = .next t → t.err ≠ 0 → ∃ e : Cause, t = faultedWith s e) ∧
  (∀ s : State, s.err = 0 → s.illegalWord = .next (faultedWith s .illegal))

/-- R154, R158, R159: which commands raise which fault, and exactly when. -/
def Obligations.FaultsAreRaisedExactlyHere : Prop :=
  ∀ (i : Instr) (s t : State), isCommand i → s.err = 0 → exec i s = .next t →
    t.err ≠ 1 ∧
    (t.err = 2 ↔ (∃ k, i = .winGet k ∧ s.len ≤ k) ∨ (∃ k, i = .frmByte k ∧ 13 < k ∧ s.frv = true)) ∧
    (t.err = 3 ↔ isAccessor i ∧ s.frv = false) ∧
    (t.err = 4 ↔ (i = .frmChk ∧ s.scnt.val ≠ 22) ∨ (∃ x, i = .frmPutb x ∧ s.scnt.val = 22))

/-! ### System and CRC commands -/

/-- R21, R118: SYS.STAT answers the 16-bit view, whose fields are those of R21, and changes nothing. -/
def Obligations.SysStatAnswersStatus : Prop :=
  ∀ s : State, exec .sysStat s = .next (answered s (s.statusView.setWidth 64)) ∧
    s.statusView.getLsbD 0 = decide (s.len = s.capacity) ∧ s.statusView.getLsbD 1 = s.eos ∧
    s.statusView.getLsbD 2 = s.frv ∧ s.statusView.getLsbD 3 = decide (s.err ≠ 0) ∧
    s.statusView.extractLsb' 4 4 = s.err ∧ (s.statusView.extractLsb' 8 5).toNat = s.scnt.val ∧
    s.statusView.extractLsb' 13 3 = 0

/-- R68 to R71: the four CRC commands, their encodings and examples. -/
def Obligations.CrcCommandsComplete : Prop :=
  (∀ s : State, s.err = 0 →
    exec .crcClr s = .next (answered { s with crcr := 0 } 0) ∧
    (∀ x, exec (.crcByte x) s
      = .next (answered { s with crcr := ((s.crcr <<< 8) ||| x.setWidth 24) ^^^ tblRead s.poly (s.crcr.extractLsb' 16 8) }
          0)) ∧
    exec .crcRd s = .next (answered s (s.crcr.setWidth 64)) ∧
    (∀ x, exec (.crcTab x) s = .next (answered s ((tblRead s.poly x).setWidth 64)))) ∧
  decodeCommand 0x10000000#32 = .ok .crcClr ∧ decodeCommand 0x12000000#32 = .ok .crcRd ∧
  (∀ x : Byte, decodeCommand (0x11000000#32 ||| x.setWidth 32) = .ok (.crcByte x) ∧
    decodeCommand (0x13000000#32 ||| x.setWidth 32) = .ok (.crcTab x)) ∧
  fold 0xFFF409#24 0x010000#24 0x00#8 = 0xFFF409#24

/-- R10: CRCR is written by CRC.CLR and CRC.BYTE and by no other command, and is 0 after reset. -/
def Obligations.OnlyCrcCommandsWriteCrcr : Prop :=
  State.reset.crcr = 0 ∧
  ∀ (i : Instr) (s t : State), exec i s = .next t →
    (i = .crcClr → s.err = 0 → t.crcr = 0) ∧
    (∀ x, i = .crcByte x → s.err = 0 → t.crcr = fold s.poly s.crcr x) ∧
    (i = .crcRd → s.err = 0 → t.portR = some ⟨.ok, s.crcr.setWidth 64⟩) ∧
    ((s.err ≠ 0 ∨ (i ≠ .crcClr ∧ ∀ x, i ≠ .crcByte x)) → t.crcr = s.crcr)

/-- R63: for every POLY the table starts with 0 and POLY and is linear; entries of the default table. -/
def Obligations.TableIsLinear : Prop :=
  (∀ poly : Word24, tblRead poly 0 = 0 ∧ tblRead poly 1 = poly ∧
    ∀ t u : Byte, tblRead poly (t ^^^ u) = tblRead poly t ^^^ tblRead poly u) ∧
  tblRead 0xFFF409#24 0x7F#8 = 0xFD0240#24 ∧ tblRead 0xFFF409#24 0x80#8 = 0x0706C0#24 ∧
  tblRead 0xFFF409#24 0xFF#8 = 0xFA0480#24

/-- R62, R65, R66: for every POLY, `crc24` of a byte sequence is the remainder of its polynomial modulo G. -/
def Obligations.Crc24IsPolynomialRemainder : Prop :=
  ∀ (poly : Word24) (bytes : List Byte),
    polynomialOf (bitsOf (crc24 poly bytes)) = (polynomialOf (bytes.flatMap bitsOf)).modByMonic (generator poly)

/-- R67 and the document's property E1: appending the three checksum bytes gives residue 0, no other three bytes do,
and a damaged checksum field leaves the XOR of the two checksums. -/
def Obligations.ChecksumBytesGiveZeroResidue : Prop :=
  ∀ (poly : Word24) (m : List Byte),
    crc24 poly (m ++ crc24Bytes poly m) = 0 ∧
    (∀ c : Word24, crc24 poly (m ++ bytesOfWord24 c) = crc24 poly (m ++ [0, 0, 0]) ^^^ c) ∧
    (∀ c : Word24, crc24 poly (m ++ bytesOfWord24 c) = 0 → bytesOfWord24 c = crc24Bytes poly m)

/-- R72: a CRC.CLR, then commands among which no CRC.CLR, then CRC.RD answers `crc24` of the bytes that were fed,
whatever commands were interleaved, in a run that does not fault. -/
def Obligations.CrcSequenceComputesCrc24 : Prop :=
  ∀ (cmds : List Instr) (s t : State),
    (∀ i ∈ cmds, i ≠ .crcClr) → execAll (.crcClr :: cmds ++ [.crcRd]) s = .next t → t.err = 0 →
      t.portR = some ⟨.ok, (crc24 s.poly (crcBytesOf cmds)).setWidth 64⟩

/-- R61: CRC.GEN answers the checksum of its bytes, and CRC.RUN of the bytes followed by that checksum answers 0. -/
def Obligations.ChecksumPseudoOperations : Prop :=
  ∀ (h : List Byte) (s : State), s.err = 0 →
    (∃ t, execAll (crcGen h) s = .next t ∧ t.portR = some ⟨.ok, (crc24 s.poly (h ++ [0, 0, 0])).setWidth 64⟩ ∧
      t.err = 0) ∧
    (∃ t, execAll (crcRun (h ++ crc24Bytes s.poly h)) s = .next t ∧ t.portR = some ⟨.ok, 0⟩ ∧ t.crcr = 0)

/-! ### The window -/

/-- R74, R79: WIN.ADV with a sample ready and at the end of the stream. With neither it waits, see
`WaitingCommandsRememberWhatIsLeft`. -/
def Obligations.WinAdvMovesTheWindow : Prop :=
  decodeCommand 0x20000000#32 = .ok .winAdv ∧
  ∀ s : State, s.err = 0 →
    (∀ v rest, s.portS = v :: rest → v < 2 ^ s.sampleWidth → s.pos.toNat + 1 < 2 ^ 57 →
      exec .winAdv s = .next (answered { s with
        wbuf := (if s.len = s.capacity then s.wbuf.tail else s.wbuf) ++ [v], pos := s.pos + 1, portS := rest } 0)) ∧
    (s.portS = [] → s.srcEnded = true →
      exec .winAdv s = .next (answered { s with
        wbuf := if s.len = s.capacity then s.wbuf.tail else s.wbuf, eos := true } 0))

/-- R75, R80: WIN.ADVN n in closed form: with n samples ready, and with fewer before the end of the stream. With fewer
and no end mark yet it waits, see `WaitingCommandsRememberWhatIsLeft`. -/
def Obligations.WinAdvnSlidesTheWindow : Prop :=
  (∀ n, n < 65536 → decodeCommand (word16 0x21 n) = .ok (.winAdvn n)) ∧
  ∀ (s : State) (n : Nat), s.err = 0 → 0 < s.capacity → s.len ≤ s.capacity → (∀ v ∈ s.portS.take n, v < 2 ^ s.sampleWidth) →
    s.pos.toNat + min n s.portS.length < 2 ^ 57 →
    (n ≤ s.portS.length →
      exec (.winAdvn n) s = .next (answered { s with
        wbuf := (s.wbuf ++ s.portS.take n).drop (s.len + n - s.capacity),
        pos := s.pos + BitVec.ofNat 64 n, portS := s.portS.drop n } 0)) ∧
    (s.portS.length < n → s.srcEnded = true →
      exec (.winAdvn n) s = .next (answered { s with
        wbuf := (s.wbuf ++ s.portS).drop
          (if s.len + s.portS.length < s.capacity then 0 else s.len + s.portS.length - s.capacity + 1),
        pos := s.pos + BitVec.ofNat 64 s.portS.length, portS := [], eos := true } 0))

/-- How the model holds a command that waits for port S (its own representation of R33 and R165, log entry 7): everything
done before the wait stays done, `busy` says what is left, and no response is given. WIN.ADV, WIN.ADVN n with fewer than
n samples ready, and the `Advance` of a rejected position in DEM.NEXT. -/
def Obligations.WaitingCommandsRememberWhatIsLeft : Prop :=
  (∀ s : State, s.err = 0 → s.portS = [] → s.srcEnded = false →
    exec .winAdv s = .next { s with busy := some .adv }) ∧
  (∀ (s : State) (n : Nat), s.err = 0 → 0 < s.capacity → s.len ≤ s.capacity → (∀ v ∈ s.portS, v < 2 ^ s.sampleWidth) →
    s.pos.toNat + s.portS.length < 2 ^ 57 → s.portS.length < n → s.srcEnded = false →
      exec (.winAdvn n) s = .next { s with
        wbuf := (s.wbuf ++ s.portS).drop (s.len + s.portS.length - s.capacity),
        pos := s.pos + BitVec.ofNat 64 s.portS.length, portS := [], busy := some (.advN (n - s.portS.length)) }) ∧
  (∀ (s : State) (prev : Nat), s.len = s.capacity → (∀ c, s.demodStep prev ≠ .accept c) → s.portS = [] →
    s.srcEnded = false → demScan prev s = .next { s with busy := some (.demStep s.peakSum) })

/-- R77, R81: WIN.GET answers the sample k places after the oldest, and faults at and above LEN. For PW > 64 the answer
modulo 2^64 is the model's choice (log entry 15). -/
def Obligations.WinGetReadsTheWindow : Prop :=
  (∀ k, k < 65536 → decodeCommand (word16 0x22 k) = .ok (.winGet k)) ∧
  ∀ (s : State) (k : Nat), s.err = 0 →
    (∀ h : k < s.wbuf.length, exec (.winGet k) s = .next (answered s (BitVec.ofNat 64 s.wbuf[k]))) ∧
    (s.len ≤ k → exec (.winGet k) s = .next (faultedWith s .range))

/-- R82, R83: WIN.POS and WIN.FULL. -/
def Obligations.WinPosAndWinFullAnswer : Prop :=
  decodeCommand 0x23000000#32 = .ok .winPos ∧ decodeCommand 0x24000000#32 = .ok .winFull ∧
  (∀ s : State, s.err = 0 →
    exec .winPos s = .next (answered s s.pos) ∧
    exec .winFull s = .next (answered s (if s.len = s.capacity then 1 else 0))) ∧
  exec .winPos State.reset = .next (answered State.reset 0) ∧
  exec .winFull State.reset = .next (answered State.reset 0)

/-- R14: POS grows by one for each sample taken from port S and by nothing else, and starts at 0. -/
def Obligations.PosCountsConsumedSamples : Prop :=
  State.reset.pos = 0 ∧
  ∀ s t : State, s.rst = false → step s = .next t →
    ∃ taken : List Nat, s.portS = taken ++ t.portS ∧ t.pos.toNat = s.pos.toNat + taken.length

/-- R15, R16: once EOS = 1 it stays, no sample is appended any more, and FULL is never 1 again, until reset. -/
def Obligations.EosIsStickyAndFullStaysLow : Prop :=
  ∀ s t : State, s.Inv → s.rst = false → s.eos = true → step s = .next t →
    t.eos = true ∧ t.wbuf = s.wbuf ∧ t.pos = s.pos ∧ t.full = false

/-! ### The demodulator -/

/-- R85 to R95: `DemodStep` at one position of the window, with every offset written out. -/
def Obligations.DemodStepTestsOnePosition : Prop :=
  ∀ (s : State) (prev : Nat),
    let w := fun k => s.wbuf.getD k 0
    let cur := w 0 + w 10 + w 35 + w 45
    let nxt := w 1 + w 11 + w 36 + w 46
    let flr := 2 * (w 5 + w 15 + w 20 + w 30 + w 40)
    s.peakSum = cur ∧
    (∀ n, s.sliceBit n = decide (w (85 + 10 * n) ≤ w (80 + 10 * n))) ∧
    (∀ k i, i < 8 → (s.sliceByte k).getLsbD (7 - i) = s.sliceBit (8 * k + i)) ∧
    (∀ k, k < 14 → frameByteAt s.candidate k = s.sliceByte k) ∧
    s.demodStep prev =
      if ¬ (prev < cur ∧ nxt < cur) then .rejectPeak
      else if ¬ flr ≤ cur then .rejectFloor
      else if (s.sliceByte 0).extractLsb' 3 5 ≠ 17#5 then .rejectFormat
      else if crc24 s.poly (frameBytes s.candidate) ≠ 0 then .rejectCrc
      else .accept s.candidate

/-- R96: a candidate accepted at a position of a scan is emitted with timestamp POS * 100, the window is advanced by 1200
samples, and the answer is 1; a stream that ends inside the skip changes nothing of the emission. DEM.NEXT on a full
window is the scan with PREV = 0; on a window that is not full see `DemNextFillsTheWindow`. -/
def Obligations.DemNextEmitsAcceptedFrame : Prop :=
  (∀ s : State, s.err = 0 → 1196 ≤ s.capacity → s.len = s.capacity → exec .demNext s = demScan 0 s) ∧
  ∀ (s : State) (prev : Nat) (c : Frame), 0 < s.capacity → s.len = s.capacity → s.demodStep prev = .accept c →
    (∀ v ∈ s.portS.take 1200, v < 2 ^ s.sampleWidth) → s.pos.toNat + min 1200 s.portS.length < 2 ^ 57 →
    (1200 ≤ s.portS.length →
      demScan prev s = .next (answered { s with
        frTs := s.pos * 100, frB := c, frv := true,
        wbuf := (s.wbuf ++ s.portS.take 1200).drop 1200, pos := s.pos + 1200, portS := s.portS.drop 1200 } 1)) ∧
    (s.portS.length < 1200 → s.srcEnded = true →
      demScan prev s = .next (answered { s with
        frTs := s.pos * 100, frB := c, frv := true, wbuf := (s.wbuf ++ s.portS).drop (s.portS.length + 1),
        pos := s.pos + BitVec.ofNat 64 s.portS.length, portS := [], eos := true } 1))

/-- R98, the fill phase: DEM.NEXT on a window that is not full first takes from port S the samples that are missing, in
order and appended at the young end, and then scans that full window with PREV = 0. A stream that ends before is
consumed, EOS is 1, no position is scanned and the answer is 0. With neither, the command waits in the fill phase (the
model's representation, log entry 7). DEM.NEXT on a full window is in `DemNextEmitsAcceptedFrame`. -/
def Obligations.DemNextFillsTheWindow : Prop :=
  ∀ (s : State) (missing : Nat), s.err = 0 → 1196 ≤ s.capacity → s.len < s.capacity → s.eos = false →
    s.len + missing = s.capacity → (∀ v ∈ s.portS.take missing, v < 2 ^ s.sampleWidth) →
    s.pos.toNat + min missing s.portS.length < 2 ^ 57 →
    (missing ≤ s.portS.length →
      exec .demNext s = demScan 0 { s with
        wbuf := s.wbuf ++ s.portS.take missing, pos := s.pos + BitVec.ofNat 64 missing,
        portS := s.portS.drop missing }) ∧
    (s.portS.length < missing → s.srcEnded = true →
      exec .demNext s = .next (answered { s with
        wbuf := s.wbuf ++ s.portS, pos := s.pos + BitVec.ofNat 64 s.portS.length, portS := [], eos := true,
        frv := false } 0)) ∧
    (s.portS.length < missing → s.srcEnded = false →
      exec .demNext s = .next { s with
        wbuf := s.wbuf ++ s.portS, pos := s.pos + BitVec.ofNat 64 s.portS.length, portS := [],
        busy := some .demFill })

/-- R97: a rejected position: PREV takes its peak sum and the window moves by one sample; at the end of the stream the
scan ends and the answer is 0 (R98). -/
def Obligations.RejectedPositionMovesByOne : Prop :=
  ∀ (s : State) (prev : Nat), s.len = s.capacity → 0 < s.capacity → (∀ c, s.demodStep prev ≠ .accept c) →
    (∀ v rest, s.portS = v :: rest → v < 2 ^ s.sampleWidth → s.pos.toNat + 1 < 2 ^ 57 →
      demScan prev s = demScan s.peakSum { s with wbuf := s.wbuf.tail ++ [v], pos := s.pos + 1, portS := rest }) ∧
    (s.portS = [] → s.srcEnded = true →
      demScan prev s = .next (answered { s with wbuf := s.wbuf.tail, eos := true, frv := false } 0))

/-- R98, R99 (a): with the whole stream given DEM.NEXT returns in exactly two ways, and touches neither the CRC
register nor the staging buffer nor ERR. -/
def Obligations.DemNextReturnsInTwoWays : Prop :=
  ∀ s : State, s.err = 0 → 1196 ≤ s.capacity → s.len ≤ s.capacity → s.InDomain → s.srcEnded = true →
    ∃ t, exec .demNext s = .next t ∧ t.busy = none ∧
      ((t.portR = some ⟨.ok, 1⟩ ∧ t.frv = true ∧ frameFormat t.frB = 17#5 ∧ crc24 t.poly (frameBytes t.frB) = 0) ∨
        (t.portR = some ⟨.ok, 0⟩ ∧ t.frv = false ∧ t.eos = true ∧ t.len < t.capacity)) ∧
      t.crcr = s.crcr ∧ t.stg = s.stg ∧ t.scnt = s.scnt ∧ t.err = s.err ∧ t.poly = s.poly

/-- R98: a DEM.NEXT issued after the end of the stream answers 0 at once. -/
def Obligations.DemNextAfterTheEndAnswersZero : Prop :=
  ∀ s : State, s.err = 0 → 1196 ≤ s.capacity → s.eos = true → s.len < s.capacity →
    exec .demNext s = .next (answered { s with frv := false } 0)

/-- R42, R99 (c): of two DEM.NEXT in a row that both answer 1, each in the step that takes it, the second frame is stamped
at least 120000 ns later. A DEM.NEXT that waits for port S is not covered. -/
def Obligations.EmittedTimestampsGrow : Prop :=
  ∀ s t u : State, s.err = 0 → exec .demNext s = .next t → t.busy = none → t.portR = some ⟨.ok, 1⟩ →
    exec .demNext t = .next u → u.busy = none → u.portR = some ⟨.ok, 1⟩ →
      t.frTs.toNat + 120000 ≤ u.frTs.toNat

/-- R87, R89, R98: a stream in which every sample has the same value holds no frame, whatever the value. -/
def Obligations.FlatSignalYieldsNoFrame : Prop :=
  ∀ (s : State) (v : Nat), s.err = 0 → 1196 ≤ s.capacity → s.len ≤ s.capacity → s.InDomain → s.srcEnded = true →
    (∀ x ∈ s.wbuf, x = v) → (∀ x ∈ s.portS, x = v) →
      ∃ t, exec .demNext s = .next t ∧ t.busy = none ∧ t.portR = some ⟨.ok, 0⟩ ∧ t.frv = false

/-- R98, and of R99 (e) the window's-start position alone: a synthetic preamble and frame with a valid checksum at the
window's start is found and returned with its address, type code and timestamp; with a corrupted checksum that position
is rejected by the CRC gate. Nothing is said of a frame further on in the stream, nor of how many frames are found. -/
def Obligations.SyntheticFrameIsFound : Prop :=
  ∀ (s : State) (f : Frame) (high low : Nat), s.err = 0 → s.capacity = 1200 → s.wbuf = pattern f high low → low < high →
    10 * low ≤ 4 * high → frameFormat f = 17#5 →
    (crc24 s.poly (frameBytes f) = 0 → 1200 ≤ s.portS.length → (∀ v ∈ s.portS.take 1200, v < 2 ^ s.sampleWidth) →
      s.pos.toNat + 1200 < 2 ^ 57 →
      ∃ t, exec .demNext s = .next t ∧ t.portR = some ⟨.ok, 1⟩ ∧ t.frB = f ∧ t.frTs = s.pos * 100 ∧ t.frv = true ∧
        exec .frmIcao t = .next (answered t (zext64 (frameAddress f))) ∧
        exec .frmTc t = .next (answered t (zext64 (frameTypeCode f)))) ∧
    (crc24 s.poly (frameBytes f) ≠ 0 → s.demodStep 0 = .rejectCrc)

/-! ### The parser -/

/-- R109: FRM.PUTB stages one byte at index SCNT and no other; a twenty-third byte faults. -/
def Obligations.FrmPutbStagesOneByte : Prop :=
  ∀ (s : State) (x : Byte), s.err = 0 →
    (s.scnt.val < 22 → ∃ t, exec (.frmPutb x) s = .next t ∧ t.scnt.val = s.scnt.val + 1 ∧
      stagedByte t.stg s.scnt.val = x ∧
      (∀ k, k < 22 → k ≠ s.scnt.val → stagedByte t.stg k = stagedByte s.stg k) ∧
      t = answered { s with stg := t.stg, scnt := t.scnt } 0) ∧
    (s.scnt.val = 22 → exec (.frmPutb x) s = .next (faultedWith s .stage)) ∧
    decodeCommand (0x40000000#32 ||| x.setWidth 32) = .ok (.frmPutb x)

/-- R110: FRM.CHK consumes a full record, whose timestamp and frame are its bytes 0 to 7 and 8 to 21. -/
def Obligations.FrmChkBuildsTheFrame : Prop :=
  ∀ s : State, s.err = 0 →
    (s.scnt.val ≠ 22 → exec .frmChk s = .next (faultedWith s .stage)) ∧
    (s.scnt.val = 22 → ∃ (ts : Word64) (c : Frame),
      (∀ k, k < 8 → ts.extractLsb' (56 - 8 * k) 8 = stagedByte s.stg k) ∧
      (∀ k, k < 14 → frameByteAt c k = stagedByte s.stg (8 + k)) ∧
      ((frameByteAt c 0).extractLsb' 3 5 = 17#5 ∧ crc24 s.poly (frameBytes c) = 0 →
        exec .frmChk s = .next (answered { s with scnt := 0, frTs := ts, frB := c, frv := true } 1)) ∧
      (¬ ((frameByteAt c 0).extractLsb' 3 5 = 17#5 ∧ crc24 s.poly (frameBytes c) = 0) →
        exec .frmChk s = .next (answered { s with scnt := 0, frv := false } 0))) ∧
    decodeCommand 0x41000000#32 = .ok .frmChk

/-- R103 to R106, R111 to R116: the header fields of the frame in FR. -/
def Obligations.AccessorsAnswerHeaderFields : Prop :=
  decodeCommand 0x42000000#32 = .ok .frmDf ∧ decodeCommand 0x43000000#32 = .ok .frmIcao ∧
  decodeCommand 0x44000000#32 = .ok .frmMe ∧ decodeCommand 0x45000000#32 = .ok .frmTc ∧
  decodeCommand 0x46000000#32 = .ok .frmKind ∧ decodeCommand 0x47000000#32 = .ok .frmTs ∧
  ∀ s : State, s.err = 0 →
    (s.frv = true →
      let b := frameByteAt s.frB
      let me : BitVec 56 := b 4 ++ b 5 ++ b 6 ++ b 7 ++ b 8 ++ b 9 ++ b 10
      exec .frmDf s = .next (answered s (((b 0).extractLsb' 3 5).setWidth 64)) ∧
      (validate s.poly s.frB = true → exec .frmDf s = .next (answered s 17)) ∧
      exec .frmIcao s = .next (answered s ((b 1 ++ b 2 ++ b 3).setWidth 64)) ∧
      exec .frmMe s = .next (answered s (me.setWidth 64)) ∧
      exec .frmTc s = .next (answered s ((me.extractLsb' 51 5).setWidth 64)) ∧
      exec .frmKind s = .next (answered s (kindOf (me.extractLsb' 51 5)).code) ∧
      exec .frmTs s = .next (answered s s.frTs)) ∧
    (s.frv = false → ∀ i, isAccessor i → exec i s = .next (faultedWith s .noFrame))

/-- R102, R117: FRM.BYTE, with E_NOFRAME before E_RANGE. -/
def Obligations.FrmByteReadsTheFrame : Prop :=
  (∀ k, k < 65536 → decodeCommand (word16 0x48 k) = .ok (.frmByte k)) ∧
  ∀ (s : State) (k : Nat), s.err = 0 →
    (s.frv = true → k ≤ 13 → exec (.frmByte k) s = .next (answered s ((frameByteAt s.frB k).setWidth 64))) ∧
    (s.frv = true → 13 < k → exec (.frmByte k) s = .next (faultedWith s .range)) ∧
    (s.frv = false → exec (.frmByte k) s = .next (faultedWith s .noFrame))

/-- R56, R108: the dispatch for all 32 type codes. -/
def Obligations.DispatchTable : Prop :=
  ∀ tc : BitVec 5, some (kindOf tc) = kindTable[tc.toNat]? ∧
    MessageKind.noMessage.code = 0 ∧ MessageKind.ident.code = 1 ∧ MessageKind.position.code = 2 ∧
    MessageKind.velocity.code = 3

/-- A frame row (FRAME.TC0.NONE to FRAME.TC31.NONE, all thirty-two of R56) as the frame of a full record: it is received if
its residue is 0, and then the accessors answer the row's fields and FRM.KIND answers the row's kind; else no frame is
left. That a frame row is executed as FRM.CHK of the record that holds it is the model's choice (log entry 3). -/
def Obligations.FrameRowsAreReceivedAndDispatched : Prop :=
  ∀ (tc : BitVec 5) (c : BitVec 3) (a : BitVec 24) (m : BitVec 51) (p : BitVec 24) (s : State),
    s.err = 0 → s.scnt.val = 22 →
    (crc24 s.poly (frameBytes (rowFrame tc c a m p)) = 0 →
      ∃ t, exec (frameRow tc c a m p) s = .next t ∧
        t = answered { s with
          scnt := 0, frTs := recordTimestamp s.stg, frB := rowFrame tc c a m p, frv := true } 1 ∧
        exec .frmDf t = .next (answered t 17) ∧
        exec .frmIcao t = .next (answered t (a.setWidth 64)) ∧
        exec .frmMe t = .next (answered t ((tc.setWidth 64 <<< 51) ||| m.setWidth 64)) ∧
        exec .frmTc t = .next (answered t (tc.setWidth 64)) ∧
        (∀ kind, kindTable[tc.toNat]? = some kind → exec .frmKind t = .next (answered t kind.code)) ∧
        exec .frmTs t = .next (answered t (recordTimestamp s.stg))) ∧
    (crc24 s.poly (frameBytes (rowFrame tc c a m p)) ≠ 0 →
      exec (frameRow tc c a m p) s = .next (answered { s with scnt := 0, frv := false } 0))

/-- R61, R110: FRM.REC of a 22-byte record into an empty staging buffer: the record's frame is in FR with its timestamp
exactly when it is valid, and nothing but the staging bytes is changed otherwise. -/
def Obligations.RecordPseudoOperationLoadsFrame : Prop :=
  ∀ (s : State) (h : List Byte), s.err = 0 → s.scnt = 0 → h.length = 22 →
    ∃ t, execAll (frmRec h) s = .next t ∧
      (validate s.poly (frameOfBytes (h.drop 8)) = true →
        t = answered { s with
          stg := t.stg, frTs := packBytes (h.take 8), frB := frameOfBytes (h.drop 8), frv := true } 1) ∧
      (validate s.poly (frameOfBytes (h.drop 8)) = false →
        t = answered { s with stg := t.stg, frv := false } 0)

/-! ### The primitives -/

/-- R142 and the document's property E2: `extractUnsigned` is shift and mask inside its domain and fails outside. -/
def Obligations.ExtractUnsignedIsShiftAndMask : Prop :=
  ∀ (word : Word64) (start size : Int),
    (1 ≤ size → size ≤ 31 → 0 ≤ start → start + size ≤ 64 →
      ∃ v, extractUnsigned word start size = some v ∧
        v.toNat = word.toNat / 2 ^ start.toNat % 2 ^ size.toNat ∧ v.toNat < 2 ^ 31) ∧
    (size < 1 ∨ 31 < size ∨ start < 0 ∨ 64 < start + size → extractUnsigned word start size = none)

/-- R146, R149: `bytesInRange` inside and outside its domain, and the header fields as the document writes them with the
primitives. -/
def Obligations.HeaderFieldsByPrimitives : Prop :=
  (∀ (bytes : List Byte) (first last : Int),
    ¬ (0 ≤ first ∧ first ≤ last ∧ last ≤ bytes.length ∧ last - first ≤ 8) → bytesInRange bytes first last = none) ∧
  (∀ f : Frame,
    bytesInRange (frameBytes f) 1 4 = some (zext64 (icaoAddress f)) ∧
    bytesInRange (frameBytes f) 4 11 = some (zext64 (payload f)) ∧
    extractUnsigned (zext64 (payload f)) 51 5 = some (zext64 (typeCode f)) ∧
    extractUnsigned (zext64 (frameByteAt f 0)) 3 5 = some (zext64 (downlinkFormat f)) ∧
    ∀ k : Nat, k < 14 → byteAt (frameBytes f) k = some (frameByteAt f k))

/-- R147 and the document's property E3: the hexadecimal form of a byte sequence reads back as the sequence; a string
that is read renders as itself in upper case; an even number of digits, upper or lower case, is read; an odd length and
a character that is no digit fail. A digit is worth its place in the table of digits, each pair of digits is one byte,
the first digit its high nibble, and the first pair is the byte at place 0. -/
def Obligations.HexFormRoundTrip : Prop :=
  ("0123456789ABCDEF".toList.map hexValue = (List.range 16).map fun v => some (BitVec.ofNat 4 v)) ∧
  ("0123456789abcdef".toList.map hexValue = (List.range 16).map fun v => some (BitVec.ofNat 4 v)) ∧
  bytesOfHex [] = some [] ∧
  (∀ (c d : Char) (rest : List Char) (high low : BitVec 4) (bytes : List Byte), hexValue c = some high →
    hexValue d = some low → bytesOfHex rest = some bytes →
      bytesOfHex (c :: d :: rest) = some (BitVec.ofNat 8 (16 * high.toNat + low.toNat) :: bytes)) ∧
  (∀ bytes : List Byte, bytesOfHex (hexOfBytes bytes) = some bytes) ∧
  (∀ (h : List Char) (bytes : List Byte), bytesOfHex h = some bytes → hexOfBytes bytes = h.map Char.toUpper) ∧
  (∀ c : Char, (hexValue c).isSome = true ↔
    ('0' ≤ c ∧ c ≤ '9') ∨ ('A' ≤ c ∧ c ≤ 'F') ∨ ('a' ≤ c ∧ c ≤ 'f')) ∧
  (∀ h : List Char, h.length % 2 = 0 → (∀ c ∈ h, (hexValue c).isSome = true) → ∃ bytes, bytesOfHex h = some bytes) ∧
  (∀ h : List Char, h.length % 2 = 1 → bytesOfHex h = none) ∧
  (∀ h : List Char, (∃ c ∈ h, hexValue c = none) → bytesOfHex h = none) ∧
  (∀ a : Word24, hexUpper6 a = hexOfBytes (bytesOfWord24 a))
end

