-- ==== Sys2Proof/Laws/Crc.lean ====
section
/-! SUPPORT. The steps of the CRC table are linear over the field of two elements, and `crc24` runs along a
concatenation (40_crc.md R63, R65, R66). -/

namespace Sys2Proof.Machine

theorem tableStep_xor (poly u v : Word24) : tableStep poly (u ^^^ v) = tableStep poly u ^^^ tableStep poly v := by
  have h : (u ^^^ v) <<< 1 = (u <<< 1) ^^^ (v <<< 1) := by
    ext i hi
    by_cases h1 : i < 1 <;> simp [h1]
  unfold tableStep
  rw [BitVec.getLsbD_xor, h]
  generalize u <<< 1 = a, v <<< 1 = b
  cases u.getLsbD 23 <;> cases v.getLsbD 23 <;> simp only [Bool.xor_false, Bool.xor_true, Bool.not_false, Bool.not_true,
    if_true, Bool.false_eq_true, if_false]
  all_goals
    ext i hi
    simp only [BitVec.getElem_xor]
    cases a[i] <;> cases b[i] <;> cases poly[i] <;> rfl

theorem tableSteps_xor (poly : Word24) (n : Nat) (u v : Word24) :
    tableSteps poly n (u ^^^ v) = tableSteps poly n u ^^^ tableSteps poly n v := by
  induction n generalizing u v with
  | zero => rfl
  | succ n ih => simp only [tableSteps, tableStep_xor, ih]

@[simp] theorem tableSteps_zero (poly : Word24) (n : Nat) : tableSteps poly n 0 = 0 := by
  induction n with
  | zero => rfl
  | succ n ih => simpa [tableSteps, tableStep] using ih

@[simp] theorem crc24_nil (poly : Word24) : crc24 poly [] = 0 := rfl

theorem crc24_append (poly : Word24) (a b : List Byte) : crc24 poly (a ++ b) = b.foldl (fold poly) (crc24 poly a) :=
  List.foldl_append

theorem crc24_snoc (poly : Word24) (a : List Byte) (x : Byte) : crc24 poly (a ++ [x]) = fold poly (crc24 poly a) x := by
  simp [crc24_append]

end Sys2Proof.Machine
end

