-- ==== Sys2Proof/Laws/Encoding.lean ====
section
/-! SUPPORT. The fields of an encoded command word and of a frame put together from its fields (30_encoding.md R44 to
R49): what the encoder puts into a field is what the decoder takes out of it, and the other way round. -/

namespace Sys2Proof

/-! ### Command words -/

@[simp] theorem opField_commandWord (op : Byte) (imm : BitVec 16) : opField (commandWord op imm) = op := by
  unfold opField commandWord; ext i hi; simp; grind

@[simp] theorem rsvField_commandWord (op : Byte) (imm : BitVec 16) : rsvField (commandWord op imm) = 0 := by
  unfold rsvField commandWord; ext i hi; simp; grind

@[simp] theorem immField_commandWord (op : Byte) (imm : BitVec 16) : immField (commandWord op imm) = imm := by
  unfold immField commandWord; ext i hi; simp; grind

/-- A word with RSV = 0 is put together from its OP and IMM fields. -/
theorem commandWord_fields (w : CommandWord) (h : rsvField w = 0) : commandWord (opField w) (immField w) = w := by
  ext i hi
  have hr : ∀ j, j < 8 → w.getLsbD (16 + j) = false := by
    intro j hj
    have := congrArg (fun v => v.getLsbD j) h
    simpa [rsvField, hj] using this
  simp only [commandWord, opField, immField, BitVec.getElem_or, BitVec.getElem_shiftLeft,
    BitVec.getLsbD_extractLsb', BitVec.getElem_setWidth]
  by_cases h1 : i < 16
  · simp [h1, show i < 24 by omega, BitVec.getLsbD_eq_getElem hi]
  · by_cases h2 : i < 24
    · have := hr (i - 16) (by omega)
      rw [show 16 + (i - 16) = i by omega, BitVec.getLsbD_eq_getElem hi] at this
      simp [h1, h2, this]
    · simp [h1, h2, show i - 24 < 8 by omega, show 24 + (i - 24) = i by omega,
        BitVec.getLsbD_eq_getElem hi]

@[simp] theorem commandWord_extract_low (op : Byte) (imm : BitVec 16) :
    (commandWord op imm).extractLsb' 0 8 = imm.extractLsb' 0 8 := by
  unfold commandWord; ext i hi; simp; grind

@[simp] theorem commandWord_extract_high (op : Byte) (imm : BitVec 16) :
    (commandWord op imm).extractLsb' 8 8 = imm.extractLsb' 8 8 := by
  unfold commandWord; ext i hi; simp; grind

@[simp] theorem setWidth16_extract_low (x : Byte) : (x.setWidth 16).extractLsb' 0 8 = x := by
  ext i hi; simp; grind

@[simp] theorem setWidth16_extract_high (x : Byte) : (x.setWidth 16).extractLsb' 8 8 = 0 := by
  ext i hi; simp

/-! ### Frames -/

section
variable (df : BitVec 5) (c : BitVec 3) (a : BitVec 24) (tc : BitVec 5) (m : BitVec 51) (p : BitVec 24)

@[simp] theorem frameFormat_frameOfFields : frameFormat (frameOfFields df c a tc m p) = df := by
  unfold frameFormat frameOfFields; ext i hi; simp; grind

@[simp] theorem frameLowBits_frameOfFields : frameLowBits (frameOfFields df c a tc m p) = c := by
  unfold frameLowBits frameOfFields; ext i hi; simp; grind

@[simp] theorem frameAddress_frameOfFields : frameAddress (frameOfFields df c a tc m p) = a := by
  unfold frameAddress frameOfFields; ext i hi; simp; grind

@[simp] theorem frameTypeCode_frameOfFields : frameTypeCode (frameOfFields df c a tc m p) = tc := by
  unfold frameTypeCode frameOfFields; ext i hi; simp; grind

@[simp] theorem frameRest_frameOfFields : frameRest (frameOfFields df c a tc m p) = m := by
  unfold frameRest frameOfFields; ext i hi; simp; grind

@[simp] theorem frameChecksum_frameOfFields : frameChecksum (frameOfFields df c a tc m p) = p := by
  unfold frameChecksum frameOfFields; ext i hi; simp; grind

end

/-- The fields of R49 tile the frame. -/
theorem frameOfFields_fields (f : Frame) :
    frameOfFields (frameFormat f) (frameLowBits f) (frameAddress f) (frameTypeCode f) (frameRest f) (frameChecksum f)
      = f := by
  ext i hi
  simp only [frameOfFields, frameFormat, frameLowBits, frameAddress, frameTypeCode, frameRest, frameChecksum,
    BitVec.getElem_or, BitVec.getElem_shiftLeft, BitVec.getLsbD_extractLsb', BitVec.getElem_setWidth]
  rw [← BitVec.getLsbD_eq_getElem hi]
  by_cases h1 : i < 24
  · simp [h1, show i < 75 by omega, show i < 80 by omega, show i < 104 by omega, show i < 107 by omega]
  by_cases h2 : i < 75
  · simp [h1, h2, show i - 24 < 51 by omega, show 24 + (i - 24) = i by omega,
      show i < 80 by omega, show i < 104 by omega, show i < 107 by omega]
  by_cases h3 : i < 80
  · simp [h1, h2, h3, show ¬ i - 24 < 51 by omega, show i - 75 < 5 by omega,
      show 75 + (i - 75) = i by omega, show i < 104 by omega, show i < 107 by omega]
  by_cases h4 : i < 104
  · simp [h1, h2, h3, h4, show ¬ i - 24 < 51 by omega, show ¬ i - 75 < 5 by omega, show i - 80 < 24 by omega,
      show 80 + (i - 80) = i by omega, show i < 107 by omega]
  by_cases h5 : i < 107
  · simp [h1, h2, h3, h4, h5, show ¬ i - 24 < 51 by omega, show ¬ i - 75 < 5 by omega, show ¬ i - 80 < 24 by omega,
      show i - 104 < 3 by omega, show 104 + (i - 104) = i by omega]
  · simp [h1, h2, h3, h4, h5, show ¬ i - 24 < 51 by omega, show ¬ i - 75 < 5 by omega, show ¬ i - 80 < 24 by omega,
      show ¬ i - 104 < 3 by omega, show i - 107 < 5 by omega,
      show 107 + (i - 107) = i by omega]

/-- A frame row is the row of its type code, and its frame has the row's fields. -/
theorem encode_frameRow (tc : BitVec 5) (c : BitVec 3) (a : BitVec 24) (m : BitVec 51) (p : BitVec 24) :
    encode (frameRow tc c a m p) = .frame (rowFrame tc c a m p) := by
  have h : ∀ t : BitVec 5, encode (frameRow t c a m p) = .frame (rowFrame t c a m p) := by
    intro t
    have ht : t = BitVec.ofFin t.toFin := rfl
    rw [ht]
    generalize t.toFin = n
    fin_cases n <;> rfl
  exact h tc

end Sys2Proof
end

