-- ==== Sys2Proof/Laws/Frame.lean ====
section
/-! SUPPORT. The bytes of a frame and of an archive record: taking them out and putting them in undo each other
(30_encoding.md R49, R57; 44_frame_parser.md R103 to R106, R109). -/

namespace Sys2Proof.Machine

/-! ### Frames as byte sequences -/

/-- Pushing one byte at the low end is appending it. -/
theorem push_byte {m n : Nat} (x : BitVec n) (b : Byte) (_h : n + 8 ≤ m) :
    (x.setWidth m <<< 8) ||| b.setWidth m = (x ++ b).setWidth m := by
  ext i hi
  simp only [BitVec.getElem_or, BitVec.getElem_shiftLeft, BitVec.getElem_setWidth, BitVec.getLsbD_append]
  by_cases h8 : i < 8
  · simp [h8]
  · simp [h8, BitVec.getLsbD_of_ge b i (by omega)]

theorem frameOfBytes_eq (b0 b1 b2 b3 b4 b5 b6 b7 b8 b9 b10 b11 b12 b13 : Byte) :
    frameOfBytes [b0, b1, b2, b3, b4, b5, b6, b7, b8, b9, b10, b11, b12, b13]
      = b0 ++ b1 ++ b2 ++ b3 ++ b4 ++ b5 ++ b6 ++ b7 ++ b8 ++ b9 ++ b10 ++ b11 ++ b12 ++ b13 := by
  have h0 : ((0 : Frame) <<< 8) ||| b0.setWidth 112 = b0.setWidth 112 := by simp
  simp only [frameOfBytes, List.foldl_cons, List.foldl_nil]
  rw [h0]
  repeat rw [push_byte _ _ (by decide)]
  simp

theorem frameBytes_frameOfBytes {bytes : List Byte} (h : bytes.length = 14) :
    frameBytes (frameOfBytes bytes) = bytes := by
  match bytes, h with
  | [b0, b1, b2, b3, b4, b5, b6, b7, b8, b9, b10, b11, b12, b13], _ =>
    rw [frameOfBytes_eq]
    simp only [frameBytes, Config.frameBytes, frameByteAt,
      show List.range 14 = [0, 1, 2, 3, 4, 5, 6, 7, 8, 9, 10, 11, 12, 13] from rfl, List.map_cons, List.map_nil,
      List.cons.injEq, and_true]
    refine ⟨?_, ?_, ?_, ?_, ?_, ?_, ?_, ?_, ?_, ?_, ?_, ?_, ?_, ?_⟩ <;>
    · ext i hi
      simp only [BitVec.getElem_extractLsb', BitVec.getLsbD_append]
      grind

@[simp] theorem length_frameBytes (f : Frame) : (frameBytes f).length = 14 := by
  simp [frameBytes, Config.frameBytes]

theorem getElem_frameBytes (f : Frame) (k : Nat) (h : k < (frameBytes f).length) :
    (frameBytes f)[k] = frameByteAt f k := by
  simp [frameBytes]

/-- A frame is its fourteen bytes. -/
theorem frame_ext {f g : Frame} (h : frameBytes f = frameBytes g) : f = g := by
  have hk : ∀ k, k < 14 → frameByteAt f k = frameByteAt g k := fun k hk => by
    have h1 := getElem_frameBytes f k (by simpa using hk)
    have h2 := getElem_frameBytes g k (by simpa using hk)
    rw [← h1, ← h2]
    simp [h]
  ext i hi
  have := congrArg (fun b => b.getLsbD (i % 8)) (hk (13 - i / 8) (by omega))
  simp only [frameByteAt, BitVec.getLsbD_extractLsb', show i % 8 < 8 from Nat.mod_lt _ (by decide), decide_true,
    Bool.true_and, show 104 - 8 * (13 - i / 8) + i % 8 = i by omega] at this
  simpa [BitVec.getLsbD_eq_getElem hi] using this

theorem frameOfBytes_frameBytes (f : Frame) : frameOfBytes (frameBytes f) = f :=
  frame_ext (frameBytes_frameOfBytes (by simp))

theorem frameByteAt_frameOfBytes {bytes : List Byte} (h : bytes.length = 14) {k : Nat} (hk : k < bytes.length) :
    frameByteAt (frameOfBytes bytes) k = bytes[k] := by
  rw [← getElem_frameBytes _ _ (by simpa [h] using hk)]
  simp [frameBytes_frameOfBytes h]

/-! ### The header fields -/

/-- The two ways of reading the downlink format agree (R50, R103). -/
theorem downlinkFormat_eq (f : Frame) : downlinkFormat f = frameFormat f := by
  ext i hi
  simp only [downlinkFormat, frameByteAt, frameFormat, BitVec.getElem_extractLsb', BitVec.getLsbD_extractLsb']
  simp [show 3 + i < 8 by omega, show 104 + (3 + i) = 107 + i by omega]

theorem icaoAddress_eq (f : Frame) : icaoAddress f = frameAddress f := rfl

theorem typeCode_eq (f : Frame) : typeCode f = frameTypeCode f := by
  ext i hi
  simp only [typeCode, payload, frameTypeCode, BitVec.getElem_extractLsb', BitVec.getLsbD_extractLsb']
  simp [show 51 + i < 56 by omega, show 24 + (51 + i) = 75 + i by omega]

/-- The first byte of the candidate is the byte the format gate reads (R92, R93). -/
theorem frameByteAt_candidate (s : State) {k : Nat} (hk : k < 14) : frameByteAt s.candidate k = s.sliceByte k := by
  rw [State.candidate, frameByteAt_frameOfBytes (by simp [Config.frameBytes]) (by simpa [Config.frameBytes] using hk)]
  simp

theorem frameFormat_candidate (s : State) : frameFormat s.candidate = (s.sliceByte 0).extractLsb' 3 5 := by
  rw [← downlinkFormat_eq, downlinkFormat, frameByteAt_candidate s (by decide)]

/-- The test of one position reads POLY and the window, and nothing else (R95). -/
theorem demodStep_congr {s t : State} (hp : s.poly = t.poly) (hw : s.wbuf = t.wbuf) (prev : Nat) :
    s.demodStep prev = t.demodStep prev := by
  cases s
  cases t
  subst hp
  subst hw
  rfl

/-- An accepted candidate is the candidate of the window, and it is valid (R94, R95, R101). -/
theorem demodStep_accept {s : State} {prev : Nat} {c : Frame} (h : s.demodStep prev = .accept c) :
    c = s.candidate ∧ s.peakOk prev = true ∧ s.floorOk = true ∧ validate s.poly c = true := by
  unfold State.demodStep at h
  split at h
  · cases h
  · split at h
    · cases h
    · split at h
      · cases h
      · split at h
        · cases h
        · rename_i h1 h2 h3 h4
          cases h
          refine ⟨rfl, by simpa using h1, by simpa using h2, ?_⟩
          simp only [ne_eq, not_not] at h3 h4
          simp [validate, frameFormat_candidate, h3, h4]

/-! ### The staging buffer -/

theorem stagedByte_setStagedByte_same (r : Record) {k : Nat} (hk : k < 22) (x : Byte) :
    stagedByte (setStagedByte r k x) k = x := by
  ext i hi
  simp only [stagedByte, setStagedByte, BitVec.getElem_extractLsb', BitVec.getLsbD_or, BitVec.getLsbD_and,
    BitVec.getLsbD_not, BitVec.getLsbD_shiftLeft, BitVec.getLsbD_setWidth]
  have h : 168 - 8 * k + i < 176 := by omega
  interval_cases i <;> (try simp only [Nat.add_zero] at h) <;> simp [h, BitVec.getLsbD_eq_getElem]

theorem stagedByte_setStagedByte_other (r : Record) {k j : Nat} (hk : k < 22) (hj : j < 22) (hkj : j ≠ k) (x : Byte) :
    stagedByte (setStagedByte r k x) j = stagedByte r j := by
  ext i hi
  simp only [stagedByte, setStagedByte, BitVec.getElem_extractLsb', BitVec.getLsbD_or, BitVec.getLsbD_and,
    BitVec.getLsbD_not, BitVec.getLsbD_shiftLeft, BitVec.getLsbD_setWidth]
  have h0 : ∀ n, 8 ≤ n → (0xFF#176).getLsbD n = false := fun n hn => by
    rw [show (0xFF#176) = (0xFF#8).setWidth 176 by decide, BitVec.getLsbD_setWidth, BitVec.getLsbD_of_ge _ _ hn]
    simp
  rcases Nat.lt_or_gt_of_ne hkj with h | h
  · have h1 : 8 ≤ 168 - 8 * j + i - (168 - 8 * k) := by omega
    simp [h0 _ h1, BitVec.getLsbD_of_ge x _ h1, show 168 - 8 * j + i < 176 by omega]
  · have h1 : 168 - 8 * j + i < 168 - 8 * k := by omega
    simp [h1, show 168 - 8 * j + i < 176 by omega]

/-! ### Records -/

theorem recordTimestamp_recordOf (ts : Word64) (f : Frame) : recordTimestamp (recordOf ts f) = ts := by
  ext i hi
  simp only [recordTimestamp, recordOf, BitVec.getElem_extractLsb', BitVec.getLsbD_or, BitVec.getLsbD_shiftLeft,
    BitVec.getLsbD_setWidth]
  simp [show 112 + i < 176 by omega, show i < 176 by omega, BitVec.getLsbD_eq_getElem hi]

theorem recordFrame_recordOf (ts : Word64) (f : Frame) : recordFrame (recordOf ts f) = f := by
  ext i hi
  simp only [recordFrame, recordOf, BitVec.getElem_extractLsb', BitVec.getLsbD_or, BitVec.getLsbD_shiftLeft,
    BitVec.getLsbD_setWidth]
  simp [hi, show i < 176 by omega]

/-- A record is its timestamp and its frame. -/
theorem recordOf_parts (r : Record) : recordOf (recordTimestamp r) (recordFrame r) = r := by
  ext i hi
  simp only [recordTimestamp, recordFrame, recordOf, BitVec.getElem_or, BitVec.getElem_shiftLeft,
    BitVec.getElem_setWidth, BitVec.getLsbD_extractLsb']
  by_cases h : i < 112
  · simp [h, BitVec.getLsbD_eq_getElem hi]
  · simp [h, show i - 112 < 64 by omega, show 112 + (i - 112) = i by omega, BitVec.getLsbD_eq_getElem hi]

end Sys2Proof.Machine
end

