-- ==== Sys2Proof/Laws/State.lean ====
section
/-! SUPPORT. One lemma for each field of State and each of the named updates: answering, raising, refusing, accepting,
reset, and the actions of the environment. No later proof unfolds one of these updates to read a field. -/

namespace Sys2Proof.Machine

/-! ### `respond` -/

@[simp] theorem State.respond_poly (s : State) (st : Status) (r : Word64) : (s.respond st r).poly = s.poly := rfl
@[simp] theorem State.respond_capacity (s : State) (st : Status) (r : Word64) : (s.respond st r).capacity = s.capacity := rfl
@[simp] theorem State.respond_sampleWidth (s : State) (st : Status) (r : Word64) : (s.respond st r).sampleWidth = s.sampleWidth := rfl
@[simp] theorem State.respond_crcr (s : State) (st : Status) (r : Word64) : (s.respond st r).crcr = s.crcr := rfl
@[simp] theorem State.respond_wbuf (s : State) (st : Status) (r : Word64) : (s.respond st r).wbuf = s.wbuf := rfl
@[simp] theorem State.respond_pos (s : State) (st : Status) (r : Word64) : (s.respond st r).pos = s.pos := rfl
@[simp] theorem State.respond_eos (s : State) (st : Status) (r : Word64) : (s.respond st r).eos = s.eos := rfl
@[simp] theorem State.respond_frTs (s : State) (st : Status) (r : Word64) : (s.respond st r).frTs = s.frTs := rfl
@[simp] theorem State.respond_frB (s : State) (st : Status) (r : Word64) : (s.respond st r).frB = s.frB := rfl
@[simp] theorem State.respond_frv (s : State) (st : Status) (r : Word64) : (s.respond st r).frv = s.frv := rfl
@[simp] theorem State.respond_stg (s : State) (st : Status) (r : Word64) : (s.respond st r).stg = s.stg := rfl
@[simp] theorem State.respond_scnt (s : State) (st : Status) (r : Word64) : (s.respond st r).scnt = s.scnt := rfl
@[simp] theorem State.respond_err (s : State) (st : Status) (r : Word64) : (s.respond st r).err = s.err := rfl
@[simp] theorem State.respond_busy (s : State) (st : Status) (r : Word64) : (s.respond st r).busy = none := rfl
@[simp] theorem State.respond_rst (s : State) (st : Status) (r : Word64) : (s.respond st r).rst = s.rst := rfl
@[simp] theorem State.respond_portC (s : State) (st : Status) (r : Word64) : (s.respond st r).portC = s.portC := rfl
@[simp] theorem State.respond_portS (s : State) (st : Status) (r : Word64) : (s.respond st r).portS = s.portS := rfl
@[simp] theorem State.respond_srcEnded (s : State) (st : Status) (r : Word64) : (s.respond st r).srcEnded = s.srcEnded := rfl
@[simp] theorem State.respond_portR (s : State) (st : Status) (r : Word64) : (s.respond st r).portR = some ⟨st, r⟩ := rfl

/-! ### `raise` -/

@[simp] theorem State.raise_poly (s : State) (e : Cause) : (s.raise e).poly = s.poly := rfl
@[simp] theorem State.raise_capacity (s : State) (e : Cause) : (s.raise e).capacity = s.capacity := rfl
@[simp] theorem State.raise_sampleWidth (s : State) (e : Cause) : (s.raise e).sampleWidth = s.sampleWidth := rfl
@[simp] theorem State.raise_crcr (s : State) (e : Cause) : (s.raise e).crcr = s.crcr := rfl
@[simp] theorem State.raise_wbuf (s : State) (e : Cause) : (s.raise e).wbuf = s.wbuf := rfl
@[simp] theorem State.raise_pos (s : State) (e : Cause) : (s.raise e).pos = s.pos := rfl
@[simp] theorem State.raise_eos (s : State) (e : Cause) : (s.raise e).eos = s.eos := rfl
@[simp] theorem State.raise_frTs (s : State) (e : Cause) : (s.raise e).frTs = s.frTs := rfl
@[simp] theorem State.raise_frB (s : State) (e : Cause) : (s.raise e).frB = s.frB := rfl
@[simp] theorem State.raise_frv (s : State) (e : Cause) : (s.raise e).frv = s.frv := rfl
@[simp] theorem State.raise_stg (s : State) (e : Cause) : (s.raise e).stg = s.stg := rfl
@[simp] theorem State.raise_scnt (s : State) (e : Cause) : (s.raise e).scnt = s.scnt := rfl
@[simp] theorem State.raise_err (s : State) (e : Cause) : (s.raise e).err = if s.err = 0 then e.code else s.err := rfl
@[simp] theorem State.raise_busy (s : State) (e : Cause) : (s.raise e).busy = none := rfl
@[simp] theorem State.raise_rst (s : State) (e : Cause) : (s.raise e).rst = s.rst := rfl
@[simp] theorem State.raise_portC (s : State) (e : Cause) : (s.raise e).portC = s.portC := rfl
@[simp] theorem State.raise_portS (s : State) (e : Cause) : (s.raise e).portS = s.portS := rfl
@[simp] theorem State.raise_srcEnded (s : State) (e : Cause) : (s.raise e).srcEnded = s.srcEnded := rfl
@[simp] theorem State.raise_portR (s : State) (e : Cause) : (s.raise e).portR = some ⟨e.status, 0⟩ := rfl

/-! ### The refusal of a faulted block -/

@[simp] theorem State.refuseFaulted_poly (s : State) : (s.refuseFaulted).poly = s.poly := rfl
@[simp] theorem State.refuseFaulted_capacity (s : State) : (s.refuseFaulted).capacity = s.capacity := rfl
@[simp] theorem State.refuseFaulted_sampleWidth (s : State) : (s.refuseFaulted).sampleWidth = s.sampleWidth := rfl
@[simp] theorem State.refuseFaulted_crcr (s : State) : (s.refuseFaulted).crcr = s.crcr := rfl
@[simp] theorem State.refuseFaulted_wbuf (s : State) : (s.refuseFaulted).wbuf = s.wbuf := rfl
@[simp] theorem State.refuseFaulted_pos (s : State) : (s.refuseFaulted).pos = s.pos := rfl
@[simp] theorem State.refuseFaulted_eos (s : State) : (s.refuseFaulted).eos = s.eos := rfl
@[simp] theorem State.refuseFaulted_frTs (s : State) : (s.refuseFaulted).frTs = s.frTs := rfl
@[simp] theorem State.refuseFaulted_frB (s : State) : (s.refuseFaulted).frB = s.frB := rfl
@[simp] theorem State.refuseFaulted_frv (s : State) : (s.refuseFaulted).frv = s.frv := rfl
@[simp] theorem State.refuseFaulted_stg (s : State) : (s.refuseFaulted).stg = s.stg := rfl
@[simp] theorem State.refuseFaulted_scnt (s : State) : (s.refuseFaulted).scnt = s.scnt := rfl
@[simp] theorem State.refuseFaulted_err (s : State) : (s.refuseFaulted).err = s.err := rfl
@[simp] theorem State.refuseFaulted_busy (s : State) : (s.refuseFaulted).busy = none := rfl
@[simp] theorem State.refuseFaulted_rst (s : State) : (s.refuseFaulted).rst = s.rst := rfl
@[simp] theorem State.refuseFaulted_portC (s : State) : (s.refuseFaulted).portC = s.portC := rfl
@[simp] theorem State.refuseFaulted_portS (s : State) : (s.refuseFaulted).portS = s.portS := rfl
@[simp] theorem State.refuseFaulted_srcEnded (s : State) : (s.refuseFaulted).srcEnded = s.srcEnded := rfl
@[simp] theorem State.refuseFaulted_portR (s : State) : (s.refuseFaulted).portR = some ⟨.eFaulted, 0⟩ := rfl

/-! ### Accepting a word -/

@[simp] theorem State.accept_poly (s : State) (rest : List CommandWord) : (s.accept rest).poly = s.poly := rfl
@[simp] theorem State.accept_capacity (s : State) (rest : List CommandWord) : (s.accept rest).capacity = s.capacity := rfl
@[simp] theorem State.accept_sampleWidth (s : State) (rest : List CommandWord) : (s.accept rest).sampleWidth = s.sampleWidth := rfl
@[simp] theorem State.accept_crcr (s : State) (rest : List CommandWord) : (s.accept rest).crcr = s.crcr := rfl
@[simp] theorem State.accept_wbuf (s : State) (rest : List CommandWord) : (s.accept rest).wbuf = s.wbuf := rfl
@[simp] theorem State.accept_pos (s : State) (rest : List CommandWord) : (s.accept rest).pos = s.pos := rfl
@[simp] theorem State.accept_eos (s : State) (rest : List CommandWord) : (s.accept rest).eos = s.eos := rfl
@[simp] theorem State.accept_frTs (s : State) (rest : List CommandWord) : (s.accept rest).frTs = s.frTs := rfl
@[simp] theorem State.accept_frB (s : State) (rest : List CommandWord) : (s.accept rest).frB = s.frB := rfl
@[simp] theorem State.accept_frv (s : State) (rest : List CommandWord) : (s.accept rest).frv = s.frv := rfl
@[simp] theorem State.accept_stg (s : State) (rest : List CommandWord) : (s.accept rest).stg = s.stg := rfl
@[simp] theorem State.accept_scnt (s : State) (rest : List CommandWord) : (s.accept rest).scnt = s.scnt := rfl
@[simp] theorem State.accept_err (s : State) (rest : List CommandWord) : (s.accept rest).err = s.err := rfl
@[simp] theorem State.accept_busy (s : State) (rest : List CommandWord) : (s.accept rest).busy = s.busy := rfl
@[simp] theorem State.accept_rst (s : State) (rest : List CommandWord) : (s.accept rest).rst = s.rst := rfl
@[simp] theorem State.accept_portC (s : State) (rest : List CommandWord) : (s.accept rest).portC = rest := rfl
@[simp] theorem State.accept_portS (s : State) (rest : List CommandWord) : (s.accept rest).portS = s.portS := rfl
@[simp] theorem State.accept_srcEnded (s : State) (rest : List CommandWord) : (s.accept rest).srcEnded = s.srcEnded := rfl
@[simp] theorem State.accept_portR (s : State) (rest : List CommandWord) : (s.accept rest).portR = none := rfl

/-! ### Reset -/

@[simp] theorem State.inReset_poly (s : State) : (s.inReset).poly = s.poly := rfl
@[simp] theorem State.inReset_capacity (s : State) : (s.inReset).capacity = s.capacity := rfl
@[simp] theorem State.inReset_sampleWidth (s : State) : (s.inReset).sampleWidth = s.sampleWidth := rfl
@[simp] theorem State.inReset_crcr (s : State) : (s.inReset).crcr = 0 := rfl
@[simp] theorem State.inReset_wbuf (s : State) : (s.inReset).wbuf = [] := rfl
@[simp] theorem State.inReset_pos (s : State) : (s.inReset).pos = 0 := rfl
@[simp] theorem State.inReset_eos (s : State) : (s.inReset).eos = false := rfl
@[simp] theorem State.inReset_frTs (s : State) : (s.inReset).frTs = 0 := rfl
@[simp] theorem State.inReset_frB (s : State) : (s.inReset).frB = 0 := rfl
@[simp] theorem State.inReset_frv (s : State) : (s.inReset).frv = false := rfl
@[simp] theorem State.inReset_stg (s : State) : (s.inReset).stg = 0 := rfl
@[simp] theorem State.inReset_scnt (s : State) : (s.inReset).scnt = 0 := rfl
@[simp] theorem State.inReset_err (s : State) : (s.inReset).err = 0 := rfl
@[simp] theorem State.inReset_busy (s : State) : (s.inReset).busy = none := rfl
@[simp] theorem State.inReset_rst (s : State) : (s.inReset).rst = s.rst := rfl
@[simp] theorem State.inReset_portC (s : State) : (s.inReset).portC = s.portC := rfl
@[simp] theorem State.inReset_portS (s : State) : (s.inReset).portS = s.portS := rfl
@[simp] theorem State.inReset_srcEnded (s : State) : (s.inReset).srcEnded = s.srcEnded := rfl
@[simp] theorem State.inReset_portR (s : State) : (s.inReset).portR = none := rfl

/-! ### The host presents a word -/

@[simp] theorem State.present_poly (s : State) (w : CommandWord) : (s.present w).poly = s.poly := rfl
@[simp] theorem State.present_capacity (s : State) (w : CommandWord) : (s.present w).capacity = s.capacity := rfl
@[simp] theorem State.present_sampleWidth (s : State) (w : CommandWord) : (s.present w).sampleWidth = s.sampleWidth := rfl
@[simp] theorem State.present_crcr (s : State) (w : CommandWord) : (s.present w).crcr = s.crcr := rfl
@[simp] theorem State.present_wbuf (s : State) (w : CommandWord) : (s.present w).wbuf = s.wbuf := rfl
@[simp] theorem State.present_pos (s : State) (w : CommandWord) : (s.present w).pos = s.pos := rfl
@[simp] theorem State.present_eos (s : State) (w : CommandWord) : (s.present w).eos = s.eos := rfl
@[simp] theorem State.present_frTs (s : State) (w : CommandWord) : (s.present w).frTs = s.frTs := rfl
@[simp] theorem State.present_frB (s : State) (w : CommandWord) : (s.present w).frB = s.frB := rfl
@[simp] theorem State.present_frv (s : State) (w : CommandWord) : (s.present w).frv = s.frv := rfl
@[simp] theorem State.present_stg (s : State) (w : CommandWord) : (s.present w).stg = s.stg := rfl
@[simp] theorem State.present_scnt (s : State) (w : CommandWord) : (s.present w).scnt = s.scnt := rfl
@[simp] theorem State.present_err (s : State) (w : CommandWord) : (s.present w).err = s.err := rfl
@[simp] theorem State.present_busy (s : State) (w : CommandWord) : (s.present w).busy = s.busy := rfl
@[simp] theorem State.present_rst (s : State) (w : CommandWord) : (s.present w).rst = s.rst := rfl
@[simp] theorem State.present_portC (s : State) (w : CommandWord) : (s.present w).portC = s.portC ++ [w] := rfl
@[simp] theorem State.present_portS (s : State) (w : CommandWord) : (s.present w).portS = s.portS := rfl
@[simp] theorem State.present_srcEnded (s : State) (w : CommandWord) : (s.present w).srcEnded = s.srcEnded := rfl
@[simp] theorem State.present_portR (s : State) (w : CommandWord) : (s.present w).portR = s.portR := rfl

/-! ### The end mark -/

@[simp] theorem State.endStream_poly (s : State) : (s.endStream).poly = s.poly := rfl
@[simp] theorem State.endStream_capacity (s : State) : (s.endStream).capacity = s.capacity := rfl
@[simp] theorem State.endStream_sampleWidth (s : State) : (s.endStream).sampleWidth = s.sampleWidth := rfl
@[simp] theorem State.endStream_crcr (s : State) : (s.endStream).crcr = s.crcr := rfl
@[simp] theorem State.endStream_wbuf (s : State) : (s.endStream).wbuf = s.wbuf := rfl
@[simp] theorem State.endStream_pos (s : State) : (s.endStream).pos = s.pos := rfl
@[simp] theorem State.endStream_eos (s : State) : (s.endStream).eos = s.eos := rfl
@[simp] theorem State.endStream_frTs (s : State) : (s.endStream).frTs = s.frTs := rfl
@[simp] theorem State.endStream_frB (s : State) : (s.endStream).frB = s.frB := rfl
@[simp] theorem State.endStream_frv (s : State) : (s.endStream).frv = s.frv := rfl
@[simp] theorem State.endStream_stg (s : State) : (s.endStream).stg = s.stg := rfl
@[simp] theorem State.endStream_scnt (s : State) : (s.endStream).scnt = s.scnt := rfl
@[simp] theorem State.endStream_err (s : State) : (s.endStream).err = s.err := rfl
@[simp] theorem State.endStream_busy (s : State) : (s.endStream).busy = s.busy := rfl
@[simp] theorem State.endStream_rst (s : State) : (s.endStream).rst = s.rst := rfl
@[simp] theorem State.endStream_portC (s : State) : (s.endStream).portC = s.portC := rfl
@[simp] theorem State.endStream_portS (s : State) : (s.endStream).portS = s.portS := rfl
@[simp] theorem State.endStream_srcEnded (s : State) : (s.endStream).srcEnded = true := rfl
@[simp] theorem State.endStream_portR (s : State) : (s.endStream).portR = s.portR := rfl

/-! ### RST asserted -/

@[simp] theorem State.assertReset_poly (s : State) : (s.assertReset).poly = s.poly := rfl
@[simp] theorem State.assertReset_capacity (s : State) : (s.assertReset).capacity = s.capacity := rfl
@[simp] theorem State.assertReset_sampleWidth (s : State) : (s.assertReset).sampleWidth = s.sampleWidth := rfl
@[simp] theorem State.assertReset_crcr (s : State) : (s.assertReset).crcr = s.crcr := rfl
@[simp] theorem State.assertReset_wbuf (s : State) : (s.assertReset).wbuf = s.wbuf := rfl
@[simp] theorem State.assertReset_pos (s : State) : (s.assertReset).pos = s.pos := rfl
@[simp] theorem State.assertReset_eos (s : State) : (s.assertReset).eos = s.eos := rfl
@[simp] theorem State.assertReset_frTs (s : State) : (s.assertReset).frTs = s.frTs := rfl
@[simp] theorem State.assertReset_frB (s : State) : (s.assertReset).frB = s.frB := rfl
@[simp] theorem State.assertReset_frv (s : State) : (s.assertReset).frv = s.frv := rfl
@[simp] theorem State.assertReset_stg (s : State) : (s.assertReset).stg = s.stg := rfl
@[simp] theorem State.assertReset_scnt (s : State) : (s.assertReset).scnt = s.scnt := rfl
@[simp] theorem State.assertReset_err (s : State) : (s.assertReset).err = s.err := rfl
@[simp] theorem State.assertReset_busy (s : State) : (s.assertReset).busy = s.busy := rfl
@[simp] theorem State.assertReset_rst (s : State) : (s.assertReset).rst = true := rfl
@[simp] theorem State.assertReset_portC (s : State) : (s.assertReset).portC = s.portC := rfl
@[simp] theorem State.assertReset_portS (s : State) : (s.assertReset).portS = s.portS := rfl
@[simp] theorem State.assertReset_srcEnded (s : State) : (s.assertReset).srcEnded = s.srcEnded := rfl
@[simp] theorem State.assertReset_portR (s : State) : (s.assertReset).portR = s.portR := rfl

/-! ### RST released -/

@[simp] theorem State.releaseReset_rst (s : State) : s.releaseReset.rst = false := by
  unfold State.releaseReset
  split
  · rfl
  · simpa using ‹¬ s.rst = true›
theorem State.releaseReset_asserted {s : State} (h : s.rst = true) : s.releaseReset = { s.inReset with rst := false } := by
  simp [State.releaseReset, h]
theorem State.releaseReset_released {s : State} (h : s.rst = false) : s.releaseReset = s := by
  simp [State.releaseReset, h]

/-! ### The source delivers samples -/

@[simp] theorem State.deliver_poly (s : State) (samples : List Nat) : (s.deliver samples).poly = s.poly := by
  unfold State.deliver; split <;> rfl
@[simp] theorem State.deliver_capacity (s : State) (samples : List Nat) : (s.deliver samples).capacity = s.capacity := by
  unfold State.deliver; split <;> rfl
@[simp] theorem State.deliver_sampleWidth (s : State) (samples : List Nat) : (s.deliver samples).sampleWidth = s.sampleWidth := by
  unfold State.deliver; split <;> rfl
@[simp] theorem State.deliver_crcr (s : State) (samples : List Nat) : (s.deliver samples).crcr = s.crcr := by
  unfold State.deliver; split <;> rfl
@[simp] theorem State.deliver_wbuf (s : State) (samples : List Nat) : (s.deliver samples).wbuf = s.wbuf := by
  unfold State.deliver; split <;> rfl
@[simp] theorem State.deliver_pos (s : State) (samples : List Nat) : (s.deliver samples).pos = s.pos := by
  unfold State.deliver; split <;> rfl
@[simp] theorem State.deliver_eos (s : State) (samples : List Nat) : (s.deliver samples).eos = s.eos := by
  unfold State.deliver; split <;> rfl
@[simp] theorem State.deliver_frTs (s : State) (samples : List Nat) : (s.deliver samples).frTs = s.frTs := by
  unfold State.deliver; split <;> rfl
@[simp] theorem State.deliver_frB (s : State) (samples : List Nat) : (s.deliver samples).frB = s.frB := by
  unfold State.deliver; split <;> rfl
@[simp] theorem State.deliver_frv (s : State) (samples : List Nat) : (s.deliver samples).frv = s.frv := by
  unfold State.deliver; split <;> rfl
@[simp] theorem State.deliver_stg (s : State) (samples : List Nat) : (s.deliver samples).stg = s.stg := by
  unfold State.deliver; split <;> rfl
@[simp] theorem State.deliver_scnt (s : State) (samples : List Nat) : (s.deliver samples).scnt = s.scnt := by
  unfold State.deliver; split <;> rfl
@[simp] theorem State.deliver_err (s : State) (samples : List Nat) : (s.deliver samples).err = s.err := by
  unfold State.deliver; split <;> rfl
@[simp] theorem State.deliver_busy (s : State) (samples : List Nat) : (s.deliver samples).busy = s.busy := by
  unfold State.deliver; split <;> rfl
@[simp] theorem State.deliver_rst (s : State) (samples : List Nat) : (s.deliver samples).rst = s.rst := by
  unfold State.deliver; split <;> rfl
@[simp] theorem State.deliver_portC (s : State) (samples : List Nat) : (s.deliver samples).portC = s.portC := by
  unfold State.deliver; split <;> rfl
@[simp] theorem State.deliver_portS (s : State) (samples : List Nat) : (s.deliver samples).portS = if s.srcEnded then s.portS else s.portS ++ samples := by
  unfold State.deliver; split <;> rfl
@[simp] theorem State.deliver_srcEnded (s : State) (samples : List Nat) : (s.deliver samples).srcEnded = s.srcEnded := by
  unfold State.deliver; split <;> rfl
@[simp] theorem State.deliver_portR (s : State) (samples : List Nat) : (s.deliver samples).portR = s.portR := by
  unfold State.deliver; split <;> rfl

end Sys2Proof.Machine
end

