-- ==== Sys2Proof/Laws/Ops.lean ====
section
/-! SUPPORT. What each shared operation can do, said once: the check at the start of a command, the reads of the index
spaces, `Advance`, `AdvanceBy`, the fill phase and the scan. A later proof cites these and unfolds none of them. -/

namespace Sys2Proof.Machine

/-! ### The check at the start of a command (R155, R156) -/

theorem State.command_healthy {s : State} (h : s.err = 0) (k : Outcome) : s.command k = k := by
  simp [State.command, State.faulted, h]

theorem State.command_faulted {s : State} (h : s.err ≠ 0) (k : Outcome) : s.command k = .next s.refuseFaulted := by
  simp only [State.command, State.faulted, bne_iff_ne.mpr h, if_true]

/-- A command with a next state was refused by a faulted block, or its own meaning answered. -/
theorem State.command_next {s t : State} {k : Outcome} (h : s.command k = .next t) :
    (s.err ≠ 0 ∧ t = s.refuseFaulted) ∨ (s.err = 0 ∧ k = .next t) := by
  by_cases he : s.err = 0
  · exact .inr ⟨he, by rwa [State.command_healthy he] at h⟩
  · rw [State.command_faulted he] at h
    exact .inl ⟨he, by simpa using h.symm⟩

/-- A fault in a block that was not faulted: ERR takes the code (R151). -/
theorem State.raise_healthy {s : State} (h : s.err = 0) (e : Cause) :
    s.raise e = { s with err := e.code, portR := some ⟨e.status, 0⟩, busy := none } := by
  simp [State.raise, State.respond, h]

theorem Cause.code_ne_zero (e : Cause) : e.code ≠ 0 := by cases e <;> decide

theorem Cause.code_le (e : Cause) : e.code.toNat ≤ 4 := by cases e <;> decide

/-! ### Reads of the index spaces -/

theorem State.winRead_ok {s : State} {k : Nat} (h : k < s.wbuf.length) : s.winRead k = .ok s.wbuf[k] := by
  simp [State.winRead, h]

theorem State.winRead_error {s : State} {k : Nat} (h : s.len ≤ k) : s.winRead k = .error .range := by
  have h' : s.wbuf.length ≤ k := h
  simp [State.winRead, h']

/-- Inside the window `sampleAt` is `WinRead` (R77). -/
theorem State.sampleAt_eq {s : State} {k : Nat} (h : k < s.wbuf.length) : s.sampleAt k = s.wbuf[k] := by
  simp [State.sampleAt, h]

theorem State.full_iff {s : State} : s.full = true ↔ s.len = s.capacity := by simp [State.full]

/-! ### `Advance` (R74) -/

/-- The three ways `Advance` goes on: a sample is taken; the end mark is found; there is no item yet. -/
theorem advance_sample {s : State} {v : Nat} {rest : List Nat} (h : s.portS = v :: rest) (hv : v < 2 ^ s.sampleWidth)
    (hp : s.pos.toNat + 1 < Config.positionLimit) :
    advance s = .done { s with wbuf := s.retained ++ [v], pos := s.pos + 1, portS := rest } := by
  simp [advance, h, Nat.not_le.mpr hv, Nat.not_le.mpr hp]

theorem advance_end {s : State} (h : s.portS = []) (he : s.srcEnded = true) :
    advance s = .done { s with wbuf := s.retained, eos := true } := by
  simp [advance, h, he]

theorem advance_hold {s : State} (h : s.portS = []) (he : s.srcEnded = false) : advance s = .wait 1 s := by
  simp [advance, h, he]

/-- One sample and then n more move POS by n + 1. -/
theorem pos_add_succ (pos : Word64) (n : Nat) : pos + 1#64 + BitVec.ofNat 64 n = pos + BitVec.ofNat 64 (n + 1) := by
  rw [BitVec.add_assoc, BitVec.add_comm 1#64, BitVec.ofNat_add]

/-- In a window that is not full nothing is dropped (R74). -/
theorem State.retained_of_not_full {s : State} (h : s.len < s.capacity) : s.retained = s.wbuf := by
  simp [State.retained, State.full, Nat.ne_of_lt h]

/-- `Advance` with a sample ready in a window that is not full appends it, and POS does not wrap (R74). -/
theorem advance_growing {s : State} {v : Nat} {rest : List Nat} (hl : s.len < s.capacity) (h : s.portS = v :: rest)
    (hv : v < 2 ^ s.sampleWidth) (hp : s.pos.toNat + 1 < Config.positionLimit) :
    advance s = .done { s with wbuf := s.wbuf ++ [v], pos := s.pos + 1, portS := rest } ∧
      (s.pos + 1).toNat = s.pos.toNat + 1 := by
  refine ⟨by rw [advance_sample h hv hp, State.retained_of_not_full hl], ?_⟩
  have : s.pos.toNat + 1 < 2 ^ 64 := by unfold Config.positionLimit at hp; omega
  rw [BitVec.toNat_add]
  exact Nat.mod_eq_of_lt this

/-- Everything a completed `Advance` can have done. -/
theorem advance_done {s t : State} (h : advance s = .done t) :
    (∃ v rest, s.portS = v :: rest ∧ v < 2 ^ s.sampleWidth ∧ s.pos.toNat + 1 < Config.positionLimit ∧
      t = { s with wbuf := s.retained ++ [v], pos := s.pos + 1, portS := rest }) ∨
    (s.portS = [] ∧ s.srcEnded = true ∧ t = { s with wbuf := s.retained, eos := true }) := by
  unfold advance at h
  split at h
  · rename_i v rest hs
    split at h
    · cases h
    · split at h
      · cases h
      · rename_i h1 h2
        exact .inl ⟨v, rest, hs, Nat.lt_of_not_le h1, Nat.lt_of_not_le h2, by simpa using h.symm⟩
  · rename_i hs
    split at h
    · rename_i he
      exact .inr ⟨hs, he, by simpa using h.symm⟩
    · cases h

/-- A waiting `Advance` has changed nothing, and port S has neither a sample nor the end mark (R33). -/
theorem advance_wait {s t : State} {left : Nat} (h : advance s = .wait left t) :
    left = 1 ∧ t = s ∧ s.portS = [] ∧ s.srcEnded = false := by
  unfold advance at h
  split at h
  · split at h
    · cases h
    · split at h <;> cases h
  · rename_i hs
    split at h
    · cases h
    · rename_i he
      cases h
      exact ⟨rfl, rfl, hs, by simpa using he⟩

/-- `Advance` faults only on a sample wider than PW (U13). -/
theorem advance_fault {s : State} {f : Fault} (h : advance s = .fault f) :
    f = .sampleTooWide ∧ ∃ v rest, s.portS = v :: rest ∧ 2 ^ s.sampleWidth ≤ v := by
  unfold advance at h
  split at h
  · rename_i v rest hs
    split at h
    · rename_i h1
      cases h
      exact ⟨rfl, v, rest, hs, h1⟩
    · split at h <;> cases h
  · split at h <;> cases h

/-- `Advance` is refused only where POS would leave its domain (R8). -/
theorem advance_refused {s : State} {r : Refusal} (h : advance s = .refused r) :
    r = .positionOutOfDomain ∧ s.portS ≠ [] ∧ Config.positionLimit ≤ s.pos.toNat + 1 := by
  unfold advance at h
  split at h
  · rename_i v rest hs
    split at h
    · cases h
    · split at h
      · rename_i h2
        cases h
        exact ⟨rfl, by simp [hs], h2⟩
      · cases h
  · split at h <;> cases h

/-- What `Advance` never touches, as one equation: only the window, POS, EOS and port S move. -/
theorem advance_frame {s t : State} (h : advance s = .done t) :
    t = { s with wbuf := t.wbuf, pos := t.pos, eos := t.eos, portS := t.portS } := by
  rcases advance_done h with ⟨v, rest, -, -, -, rfl⟩ | ⟨-, -, rfl⟩ <;> rfl

/-! ### `AdvanceBy` (R75) -/

@[simp] theorem advanceBy_zero (s : State) : advanceBy 0 s = .done s := rfl

theorem advanceBy_succ_done {n : Nat} {s t : State} (h : advance s = .done t) :
    advanceBy (n + 1) s = advanceBy n t := by
  simp [advanceBy, h]

/-- A full window slides: with `n` samples ready, `AdvanceBy(n)` drops the n oldest and appends those (R74, R75). -/
theorem advanceBy_full (n : Nat) :
    ∀ s : State, s.len = s.capacity → 0 < s.capacity → n ≤ s.portS.length → (∀ v ∈ s.portS.take n, v < 2 ^ s.sampleWidth) →
      s.pos.toNat + n < Config.positionLimit →
      advanceBy n s = .done { s with
        wbuf := (s.wbuf ++ s.portS.take n).drop n, pos := s.pos + BitVec.ofNat 64 n, portS := s.portS.drop n } := by
  induction n with
  | zero => intro s _ _ _ _ _; simp
  | succ n ih =>
    intro s hl hc hn hv hp
    obtain ⟨v, rest, hs⟩ : ∃ v rest, s.portS = v :: rest := by
      cases h : s.portS with
      | nil => simp [h] at hn
      | cons v rest => exact ⟨v, rest, rfl⟩
    obtain ⟨w, ws, hw⟩ : ∃ w ws, s.wbuf = w :: ws := by
      cases h : s.wbuf with
      | nil => simp [State.len, h] at hl; omega
      | cons w ws => exact ⟨w, ws, rfl⟩
    have hf : s.full = true := State.full_iff.mpr hl
    have hpos : (s.pos + 1).toNat = s.pos.toNat + 1 := by
      have : s.pos.toNat + 1 < 2 ^ 64 := by unfold Config.positionLimit at hp; omega
      rw [BitVec.toNat_add]
      exact Nat.mod_eq_of_lt this
    rw [advanceBy_succ_done (advance_sample hs (hv v (by simp [hs])) (by omega))]
    rw [ih]
    · simp [State.retained, hf, hs, hw, pos_add_succ]
    · simp only [State.len, State.retained, hf, hw, if_true] at hl ⊢
      simpa using hl
    · exact hc
    · simp [hs] at hn ⊢; omega
    · intro x hx
      exact hv x (by simp only [hs, List.take_succ_cons]; exact List.mem_cons_of_mem _ hx)
    · show (s.pos + 1).toNat + n < _
      omega

/-- What every `Advance` keeps, `AdvanceBy` keeps, whether it completes or waits. -/
theorem advanceBy_keeps {P : State → Prop} (hP : ∀ s t, P s → advance s = .done t → P t) :
    ∀ (n : Nat) (s : State), P s →
      (∀ t, advanceBy n s = .done t → P t) ∧
      (∀ left t, advanceBy n s = .wait left t →
        P t ∧ t.portS = [] ∧ t.srcEnded = false ∧ 1 ≤ left ∧ left ≤ n) := by
  intro n
  induction n with
  | zero =>
    intro s hs
    refine ⟨fun t h => ?_, fun left t h => ?_⟩
    · cases h; exact hs
    · cases h
  | succ n ih =>
    intro s hs
    cases ha : advance s with
    | done s' =>
      obtain ⟨h1, h2⟩ := ih s' (hP s s' hs ha)
      simp only [advanceBy, ha]
      exact ⟨h1, fun left t h => by
        obtain ⟨a, b, c, d, e⟩ := h2 left t h
        exact ⟨a, b, c, d, by omega⟩⟩
    | wait k s' =>
      obtain ⟨-, rfl, hp, he⟩ := advance_wait ha
      simp only [advanceBy, ha]
      refine ⟨fun t h => by simp at h, fun left t h => ?_⟩
      cases h
      exact ⟨hs, hp, he, by omega, le_refl _⟩
    | fault f => simp [advanceBy, ha]
    | refused r => simp [advanceBy, ha]

/-! ### The fill phase (R98) -/

theorem fill_keeps {P : State → Prop} (hP : ∀ s t, P s → advance s = .done t → P t) :
    ∀ (n : Nat) (s : State), P s →
      (∀ t, fill n s = .done t → P t) ∧
      (∀ left t, fill n s = .wait left t → P t ∧ t.portS = [] ∧ t.srcEnded = false ∧ t.eos = false) := by
  intro n
  induction n with
  | zero =>
    intro s hs
    refine ⟨fun t h => ?_, fun left t h => ?_⟩
    · cases h; exact hs
    · cases h
  | succ n ih =>
    intro s hs
    by_cases heos : s.eos = true
    · simp only [fill, heos, if_true]
      exact ⟨fun t h => by cases h; exact hs, fun left t h => by cases h⟩
    · simp only [fill, heos]
      cases ha : advance s with
      | done s' => simpa using ih s' (hP s s' hs ha)
      | wait k s' =>
        obtain ⟨-, rfl, hp, he⟩ := advance_wait ha
        refine ⟨fun t h => by simp at h, fun left t h => ?_⟩
        obtain ⟨-, rfl⟩ : n + 1 = left ∧ s' = t := by simpa using h
        exact ⟨hs, hp, he, by simpa using heos⟩
      | fault f => simp
      | refused r => simp

/-- The fill phase ends at EOS = 1. -/
theorem fill_ended {n : Nat} {s : State} (he : s.eos = true) : fill n s = .done s := by
  cases n <;> simp [fill, he]

theorem fill_succ_done {n : Nat} {s t : State} (he : s.eos = false) (ha : advance s = .done t) :
    fill (n + 1) s = fill n t := by
  simp [fill, he, ha]

theorem fill_succ_wait {n left : Nat} {s t : State} (he : s.eos = false) (ha : advance s = .wait left t) :
    fill (n + 1) s = .wait (n + 1) t := by
  simp [fill, he, ha]

/-- With the missing samples ready, the fill phase appends them and does nothing else (R74, R98). -/
theorem fill_ready (n : Nat) :
    ∀ s : State, s.eos = false → s.len + n ≤ s.capacity → n ≤ s.portS.length →
      (∀ v ∈ s.portS.take n, v < 2 ^ s.sampleWidth) → s.pos.toNat + n < Config.positionLimit →
      fill n s = .done { s with
        wbuf := s.wbuf ++ s.portS.take n, pos := s.pos + BitVec.ofNat 64 n, portS := s.portS.drop n } := by
  induction n with
  | zero => intro s _ _ _ _ _; simp [fill]
  | succ n ih =>
    intro s he hl hn hv hp
    obtain ⟨v, rest, hs⟩ := List.exists_cons_of_length_pos (Nat.lt_of_lt_of_le (Nat.succ_pos n) hn)
    obtain ⟨ha, hpos⟩ := advance_growing (s := s) (by omega) hs (hv v (by simp [hs])) (by omega)
    rw [fill_succ_done he ha, ih]
    · simp [hs, pos_add_succ]
    · exact he
    · simp only [State.len, List.length_append, List.length_singleton] at hl ⊢
      omega
    · simpa [hs] using hn
    · exact fun x hx => hv x (by simpa [hs] using .inr hx)
    · show (s.pos + 1).toNat + n < _
      omega

/-- With fewer samples ready than are missing, the fill phase appends all of them and ends at the end mark or waits
(R33, R74, R98). -/
theorem fill_short (n : Nat) :
    ∀ s t : State, s.eos = false → s.len + n ≤ s.capacity → s.portS.length < n →
      (∀ v ∈ s.portS, v < 2 ^ s.sampleWidth) → s.pos.toNat + s.portS.length < Config.positionLimit →
      t = { s with wbuf := s.wbuf ++ s.portS, pos := s.pos + BitVec.ofNat 64 s.portS.length, portS := [] } →
      fill n s = if s.srcEnded then .done { t with eos := true } else .wait (n - s.portS.length) t := by
  induction n with
  | zero => intro s _ _ _ hn; omega
  | succ n ih =>
    intro s t he hl hn hv hp ht
    cases hs : s.portS with
    | nil =>
      obtain rfl : t = s := by
        cases s
        subst hs
        simp [ht]
      by_cases hsrc : t.srcEnded = true
      · rw [fill_succ_done he (advance_end hs hsrc), State.retained_of_not_full (by omega), fill_ended rfl, if_pos hsrc]
      · rw [fill_succ_wait he (advance_hold hs (by simpa using hsrc)), if_neg hsrc]
        rfl
    | cons v rest =>
      simp only [hs, List.length_cons] at hn hp
      obtain ⟨ha, hpos⟩ := advance_growing (s := s) (by omega) hs (hv v (by simp [hs])) (by omega)
      rw [fill_succ_done he ha, ih _ t]
      · simp
      · exact he
      · simp only [State.len, List.length_append, List.length_singleton] at hl ⊢
        omega
      · show rest.length < n
        omega
      · exact fun x hx => hv x (by simpa [hs] using .inr hx)
      · show (s.pos + 1).toNat + rest.length < _
        omega
      · simp [ht, hs, pos_add_succ]

/-! ### The scan (R97, R98) -/

/-- The turns of the scan loop: a state with a full window whose position is rejected moves on by one `Advance`. -/
theorem scan_keeps {P : State → Prop} (hP : ∀ s t, P s → advance s = .done t → P t) :
    ∀ (avail : List Nat) (prev : Nat) (s : State), P s →
      (∀ c t, scan avail prev s = .found c t → P t ∧ t.full = true ∧ ∃ prev', t.demodStep prev' = .accept c) ∧
      (∀ t, scan avail prev s = .exhausted t → P t) ∧
      (∀ prev' t, scan avail prev s = .wait prev' t →
        P t ∧ t.full = true ∧ prev' = t.peakSum ∧ t.portS = [] ∧ t.srcEnded = false) := by
  have turn : ∀ (prev : Nat) (s : State) (onward : Nat → State → Scan), P s →
      (∀ cur s', P s' →
        (∀ c t, onward cur s' = .found c t → P t ∧ t.full = true ∧ ∃ prev', t.demodStep prev' = .accept c) ∧
        (∀ t, onward cur s' = .exhausted t → P t) ∧
        (∀ prev' t, onward cur s' = .wait prev' t →
          P t ∧ t.full = true ∧ prev' = t.peakSum ∧ t.portS = [] ∧ t.srcEnded = false)) →
      (∀ c t, scanTurn prev s onward = .found c t → P t ∧ t.full = true ∧ ∃ prev', t.demodStep prev' = .accept c) ∧
      (∀ t, scanTurn prev s onward = .exhausted t → P t) ∧
      (∀ prev' t, scanTurn prev s onward = .wait prev' t →
        P t ∧ t.full = true ∧ prev' = t.peakSum ∧ t.portS = [] ∧ t.srcEnded = false) := by
    intro prev s onward hs ho
    by_cases hf : s.full = true
    · simp only [scanTurn, hf, if_true]
      cases hd : s.demodStep prev with
      | accept c =>
        refine ⟨fun c' t h => ?_, fun t h => by simp at h, fun _ t h => by simp at h⟩
        simp only [Scan.found.injEq] at h
        obtain ⟨rfl, rfl⟩ := h
        exact ⟨hs, hf, prev, hd⟩
      | _ =>
        cases ha : advance s with
        | done s' => simpa [ha] using ho s.peakSum s' (hP s s' hs ha)
        | wait k s' =>
          obtain ⟨-, rfl, hp, he⟩ := advance_wait ha
          refine ⟨fun _ t h => by simp at h, fun t h => by simp at h, fun p t h => ?_⟩
          simp only [Scan.wait.injEq] at h
          obtain ⟨rfl, rfl⟩ := h
          exact ⟨hs, hf, rfl, hp, he⟩
        | fault f => simp
        | refused r => simp
    · simp only [scanTurn, hf]
      refine ⟨fun _ t h => by simp at h, fun t h => ?_, fun _ t h => by simp at h⟩
      have : s = t := by simpa using h
      exact this ▸ hs
  intro avail
  induction avail with
  | nil =>
    intro prev s hs
    exact turn prev s _ hs fun cur s' h' =>
      ⟨fun _ t h => by simp at h, fun t h => by cases h; exact h', fun _ t h => by simp at h⟩
  | cons v rest ih =>
    intro prev s hs
    exact turn prev s _ hs fun cur s' h' => ih cur s' h'

end Sys2Proof.Machine
end

