-- ==== Sys2Proof/Laws/Parser.lean ====
section
/-! SUPPORT. What the decoder's operand forms, the accessors and the consumption of a staged record can do, said once
(30_encoding.md R46; 44_frame_parser.md R108, R110 to R116). -/

namespace Sys2Proof

/-! ### Operand forms (R46) -/

theorem formNone_ok {w : CommandWord} {i j : Instr} (h : formNone w i = .ok j) : j = i ∧ immField w = 0 := by
  unfold formNone at h
  split at h
  · cases h; exact ⟨rfl, by assumption⟩
  · cases h

theorem formImm8_ok {w : CommandWord} {f : Byte → Instr} {j : Instr} (h : formImm8 w f = .ok j) :
    j = f (w.extractLsb' 0 8) ∧ w.extractLsb' 8 8 = 0 := by
  unfold formImm8 at h
  split at h
  · cases h; exact ⟨rfl, by assumption⟩
  · cases h

theorem formImm16_ok {w : CommandWord} {f : Nat → Instr} {j : Instr} (h : formImm16 w f = .ok j) :
    j = f (immField w).toNat := by
  cases h; rfl

/-- A frame with downlink format 17 is the frame of the row of its fields. -/
theorem rowFrame_fields {f : Frame} (h : frameFormat f = Config.acceptedFormat) :
    rowFrame (frameTypeCode f) (frameLowBits f) (frameAddress f) (frameRest f) (frameChecksum f) = f := by
  have := frameOfFields_fields f
  rwa [h] at this

namespace Machine

/-! ### The commands of the parser -/

/-- A frame row consumes the record whose frame is the row's. -/
theorem exec_frameRow (tc : BitVec 5) (c : BitVec 3) (a : BitVec 24) (m : BitVec 51) (p : BitVec 24) (s : State) :
    exec (frameRow tc c a m p) s = s.checkFrame (rowFrame tc c a m p) := by
  obtain ⟨⟨n, hn⟩⟩ := tc
  unfold frameRow
  interval_cases n <;> rfl

/-- Everything the consumption of a record can do in a block that is not faulted (R110). -/
theorem State.checkFrame_next {s t : State} {c : Frame} (he : s.err = 0) (h : s.checkFrame c = .next t) :
    (s.scnt.val ≠ 22 ∧ t = s.raise .stage) ∨
    (s.scnt.val = 22 ∧ validate s.poly c = true ∧
      t = { s with scnt := 0, frTs := recordTimestamp s.stg, frB := c, frv := true }.respond .ok 1) ∨
    (s.scnt.val = 22 ∧ validate s.poly c = false ∧ t = { s with scnt := 0, frv := false }.respond .ok 0) := by
  unfold State.checkFrame at h
  rw [State.command_healthy he] at h
  split at h
  · cases h; exact .inl ⟨by assumption, rfl⟩
  · rename_i h22
    cases h
    unfold State.receiveFrame
    cases hv : validate s.poly c with
    | true => exact .inr (.inl ⟨not_not.mp h22, rfl, rfl⟩)
    | false => exact .inr (.inr ⟨not_not.mp h22, rfl, rfl⟩)

/-- Everything an accessor can do in a block that is not faulted (R158). -/
theorem State.answerFromFrame_next {s t : State} {v : Word64} (he : s.err = 0) (h : s.answerFromFrame v = .next t) :
    (s.frv = false ∧ t = s.raise .noFrame) ∨ (s.frv = true ∧ t = s.respond .ok v) := by
  unfold State.answerFromFrame at h
  rw [State.command_healthy he] at h
  split at h
  · cases h; exact .inl ⟨by assumption, rfl⟩
  · rename_i hf
    cases h
    exact .inr ⟨by simpa using hf, rfl⟩

end Machine

end Sys2Proof
end

