-- ==== Sys2Proof/Laws/PerInstr.lean ====
section
/-! SUPPORT. For each row of the opcode table: what its code carries in the fields that name the row, the opcode and the
reserved field of a command word (30_encoding.md R44, R45) or the downlink format and the type code of a frame (R49,
R56), and its operand fields. -/

namespace Sys2Proof.Laws.TableRow

/-- What names a row: an OP of R45, or a TC of R56. -/
inductive Key where
  | op (v : Byte)
  | tc (v : BitVec 5)
  deriving DecidableEq, Repr

/-- The key of each row, read off the tables. -/
def key : Instr → Key
  | .sysStat => .op 0x01#8
  | .crcClr => .op 0x10#8
  | .crcByte _ => .op 0x11#8
  | .crcRd => .op 0x12#8
  | .crcTab _ => .op 0x13#8
  | .winAdv => .op 0x20#8
  | .winAdvn _ => .op 0x21#8
  | .winGet _ => .op 0x22#8
  | .winPos => .op 0x23#8
  | .winFull => .op 0x24#8
  | .demNext => .op 0x30#8
  | .frmPutb _ => .op 0x40#8
  | .frmChk => .op 0x41#8
  | .frmDf => .op 0x42#8
  | .frmIcao => .op 0x43#8
  | .frmMe => .op 0x44#8
  | .frmTc => .op 0x45#8
  | .frmKind => .op 0x46#8
  | .frmTs => .op 0x47#8
  | .frmByte _ => .op 0x48#8
  | .frameTc0None _ _ _ _ => .tc 0#5
  | .frameTc1Ident _ _ _ _ => .tc 1#5
  | .frameTc2Ident _ _ _ _ => .tc 2#5
  | .frameTc3Ident _ _ _ _ => .tc 3#5
  | .frameTc4Ident _ _ _ _ => .tc 4#5
  | .frameTc5None _ _ _ _ => .tc 5#5
  | .frameTc6None _ _ _ _ => .tc 6#5
  | .frameTc7None _ _ _ _ => .tc 7#5
  | .frameTc8None _ _ _ _ => .tc 8#5
  | .frameTc9Position _ _ _ _ => .tc 9#5
  | .frameTc10Position _ _ _ _ => .tc 10#5
  | .frameTc11Position _ _ _ _ => .tc 11#5
  | .frameTc12Position _ _ _ _ => .tc 12#5
  | .frameTc13Position _ _ _ _ => .tc 13#5
  | .frameTc14Position _ _ _ _ => .tc 14#5
  | .frameTc15Position _ _ _ _ => .tc 15#5
  | .frameTc16Position _ _ _ _ => .tc 16#5
  | .frameTc17Position _ _ _ _ => .tc 17#5
  | .frameTc18Position _ _ _ _ => .tc 18#5
  | .frameTc19Velocity _ _ _ _ => .tc 19#5
  | .frameTc20Position _ _ _ _ => .tc 20#5
  | .frameTc21Position _ _ _ _ => .tc 21#5
  | .frameTc22Position _ _ _ _ => .tc 22#5
  | .frameTc23None _ _ _ _ => .tc 23#5
  | .frameTc24None _ _ _ _ => .tc 24#5
  | .frameTc25None _ _ _ _ => .tc 25#5
  | .frameTc26None _ _ _ _ => .tc 26#5
  | .frameTc27None _ _ _ _ => .tc 27#5
  | .frameTc28None _ _ _ _ => .tc 28#5
  | .frameTc29None _ _ _ _ => .tc 29#5
  | .frameTc30None _ _ _ _ => .tc 30#5
  | .frameTc31None _ _ _ _ => .tc 31#5

/-- The code of a row carries the row's key and zeros in the reserved field, or downlink format 17. -/
def Statement (i : Instr) : Prop :=
  match encode i with
  | .command w => key i = .op (opField w) ∧ rsvField w = 0
  | .frame f => key i = .tc (frameTypeCode f) ∧ frameFormat f = 17#5

theorem command_row {i : Instr} {op : Byte} {imm : BitVec 16} (h : encode i = .command (commandWord op imm))
    (hk : key i = .op op) : Statement i := by
  simp [Statement, h, hk]

theorem frame_row {i : Instr} {tc : BitVec 5} {c : BitVec 3} {a : BitVec 24} {m : BitVec 51} {p : BitVec 24}
    (h : encode i = .frame (rowFrame tc c a m p)) (hk : key i = .tc tc) : Statement i := by
  simp [Statement, h, hk, rowFrame, Config.acceptedFormat]

theorem sysStat : Statement (.sysStat) := command_row rfl rfl
theorem crcClr : Statement (.crcClr) := command_row rfl rfl
theorem crcByte (x : Byte) : Statement (.crcByte x) := command_row rfl rfl
theorem crcRd : Statement (.crcRd) := command_row rfl rfl
theorem crcTab (t : Byte) : Statement (.crcTab t) := command_row rfl rfl
theorem winAdv : Statement (.winAdv) := command_row rfl rfl
theorem winAdvn (n : Nat) : Statement (.winAdvn n) := command_row rfl rfl
theorem winGet (k : Nat) : Statement (.winGet k) := command_row rfl rfl
theorem winPos : Statement (.winPos) := command_row rfl rfl
theorem winFull : Statement (.winFull) := command_row rfl rfl
theorem demNext : Statement (.demNext) := command_row rfl rfl
theorem frmPutb (x : Byte) : Statement (.frmPutb x) := command_row rfl rfl
theorem frmChk : Statement (.frmChk) := command_row rfl rfl
theorem frmDf : Statement (.frmDf) := command_row rfl rfl
theorem frmIcao : Statement (.frmIcao) := command_row rfl rfl
theorem frmMe : Statement (.frmMe) := command_row rfl rfl
theorem frmTc : Statement (.frmTc) := command_row rfl rfl
theorem frmKind : Statement (.frmKind) := command_row rfl rfl
theorem frmTs : Statement (.frmTs) := command_row rfl rfl
theorem frmByte (k : Nat) : Statement (.frmByte k) := command_row rfl rfl
theorem frameTc0None (c : BitVec 3) (a : BitVec 24) (m : BitVec 51) (p : BitVec 24) :
    Statement (.frameTc0None c a m p) := frame_row rfl rfl
theorem frameTc1Ident (c : BitVec 3) (a : BitVec 24) (m : BitVec 51) (p : BitVec 24) :
    Statement (.frameTc1Ident c a m p) := frame_row rfl rfl
theorem frameTc2Ident (c : BitVec 3) (a : BitVec 24) (m : BitVec 51) (p : BitVec 24) :
    Statement (.frameTc2Ident c a m p) := frame_row rfl rfl
theorem frameTc3Ident (c : BitVec 3) (a : BitVec 24) (m : BitVec 51) (p : BitVec 24) :
    Statement (.frameTc3Ident c a m p) := frame_row rfl rfl
theorem frameTc4Ident (c : BitVec 3) (a : BitVec 24) (m : BitVec 51) (p : BitVec 24) :
    Statement (.frameTc4Ident c a m p) := frame_row rfl rfl
theorem frameTc5None (c : BitVec 3) (a : BitVec 24) (m : BitVec 51) (p : BitVec 24) :
    Statement (.frameTc5None c a m p) := frame_row rfl rfl
theorem frameTc6None (c : BitVec 3) (a : BitVec 24) (m : BitVec 51) (p : BitVec 24) :
    Statement (.frameTc6None c a m p) := frame_row rfl rfl
theorem frameTc7None (c : BitVec 3) (a : BitVec 24) (m : BitVec 51) (p : BitVec 24) :
    Statement (.frameTc7None c a m p) := frame_row rfl rfl
theorem frameTc8None (c : BitVec 3) (a : BitVec 24) (m : BitVec 51) (p : BitVec 24) :
    Statement (.frameTc8None c a m p) := frame_row rfl rfl
theorem frameTc9Position (c : BitVec 3) (a : BitVec 24) (m : BitVec 51) (p : BitVec 24) :
    Statement (.frameTc9Position c a m p) := frame_row rfl rfl
theorem frameTc10Position (c : BitVec 3) (a : BitVec 24) (m : BitVec 51) (p : BitVec 24) :
    Statement (.frameTc10Position c a m p) := frame_row rfl rfl
theorem frameTc11Position (c : BitVec 3) (a : BitVec 24) (m : BitVec 51) (p : BitVec 24) :
    Statement (.frameTc11Position c a m p) := frame_row rfl rfl
theorem frameTc12Position (c : BitVec 3) (a : BitVec 24) (m : BitVec 51) (p : BitVec 24) :
    Statement (.frameTc12Position c a m p) := frame_row rfl rfl
theorem frameTc13Position (c : BitVec 3) (a : BitVec 24) (m : BitVec 51) (p : BitVec 24) :
    Statement (.frameTc13Position c a m p) := frame_row rfl rfl
theorem frameTc14Position (c : BitVec 3) (a : BitVec 24) (m : BitVec 51) (p : BitVec 24) :
    Statement (.frameTc14Position c a m p) := frame_row rfl rfl
theorem frameTc15Position (c : BitVec 3) (a : BitVec 24) (m : BitVec 51) (p : BitVec 24) :
    Statement (.frameTc15Position c a m p) := frame_row rfl rfl
theorem frameTc16Position (c : BitVec 3) (a : BitVec 24) (m : BitVec 51) (p : BitVec 24) :
    Statement (.frameTc16Position c a m p) := frame_row rfl rfl
theorem frameTc17Position (c : BitVec 3) (a : BitVec 24) (m : BitVec 51) (p : BitVec 24) :
    Statement (.frameTc17Position c a m p) := frame_row rfl rfl
theorem frameTc18Position (c : BitVec 3) (a : BitVec 24) (m : BitVec 51) (p : BitVec 24) :
    Statement (.frameTc18Position c a m p) := frame_row rfl rfl
theorem frameTc19Velocity (c : BitVec 3) (a : BitVec 24) (m : BitVec 51) (p : BitVec 24) :
    Statement (.frameTc19Velocity c a m p) := frame_row rfl rfl
theorem frameTc20Position (c : BitVec 3) (a : BitVec 24) (m : BitVec 51) (p : BitVec 24) :
    Statement (.frameTc20Position c a m p) := frame_row rfl rfl
theorem frameTc21Position (c : BitVec 3) (a : BitVec 24) (m : BitVec 51) (p : BitVec 24) :
    Statement (.frameTc21Position c a m p) := frame_row rfl rfl
theorem frameTc22Position (c : BitVec 3) (a : BitVec 24) (m : BitVec 51) (p : BitVec 24) :
    Statement (.frameTc22Position c a m p) := frame_row rfl rfl
theorem frameTc23None (c : BitVec 3) (a : BitVec 24) (m : BitVec 51) (p : BitVec 24) :
    Statement (.frameTc23None c a m p) := frame_row rfl rfl
theorem frameTc24None (c : BitVec 3) (a : BitVec 24) (m : BitVec 51) (p : BitVec 24) :
    Statement (.frameTc24None c a m p) := frame_row rfl rfl
theorem frameTc25None (c : BitVec 3) (a : BitVec 24) (m : BitVec 51) (p : BitVec 24) :
    Statement (.frameTc25None c a m p) := frame_row rfl rfl
theorem frameTc26None (c : BitVec 3) (a : BitVec 24) (m : BitVec 51) (p : BitVec 24) :
    Statement (.frameTc26None c a m p) := frame_row rfl rfl
theorem frameTc27None (c : BitVec 3) (a : BitVec 24) (m : BitVec 51) (p : BitVec 24) :
    Statement (.frameTc27None c a m p) := frame_row rfl rfl
theorem frameTc28None (c : BitVec 3) (a : BitVec 24) (m : BitVec 51) (p : BitVec 24) :
    Statement (.frameTc28None c a m p) := frame_row rfl rfl
theorem frameTc29None (c : BitVec 3) (a : BitVec 24) (m : BitVec 51) (p : BitVec 24) :
    Statement (.frameTc29None c a m p) := frame_row rfl rfl
theorem frameTc30None (c : BitVec 3) (a : BitVec 24) (m : BitVec 51) (p : BitVec 24) :
    Statement (.frameTc30None c a m p) := frame_row rfl rfl
theorem frameTc31None (c : BitVec 3) (a : BitVec 24) (m : BitVec 51) (p : BitVec 24) :
    Statement (.frameTc31None c a m p) := frame_row rfl rfl

end Sys2Proof.Laws.TableRow
end

