-- ==== Sys2Proof/Tests/Slice0.lean ====
section
/-! SUPPORT. The writer's own tests. Every expected value comes from the spec: an encoding table of 30_encoding.md, an
example of a rule, or a vector of 95_test_vectors.md, named at each test. Each behaviour test is one command on a small
state. After them stand the witnesses: for each statement with hypotheses, states and operands that meet them. -/

open Sys2Proof Sys2Proof.Machine Sys2Proof.Statements

namespace Sys2Proof.Tests

/-! ### Helpers -/

/-- The response a command leaves on port R. -/
def answer : Outcome → Option Response
  | .next s => s.portR
  | .fault _ => none
  | .refused _ => none

/-- Does an outcome have a next state with a property. -/
def nextWith (o : Outcome) (p : State → Bool) : Bool :=
  match o with
  | .next s => p s
  | .fault _ => false
  | .refused _ => false

theorem exists_next {o : Outcome} {p : State → Bool} (h : nextWith o p = true) : ∃ t, o = .next t ∧ p t = true := by
  cases o with
  | next s => exact ⟨s, rfl, h⟩
  | fault f => simp [nextWith] at h
  | refused r => simp [nextWith] at h

/-- The answer OK with a result. -/
def ok (result : Word64) : Option Response := some ⟨.ok, result⟩

/-- The answer of a fault. -/
def failed (status : Status) : Option Response := some ⟨status, 0⟩

/-- The example frame of 44_frame_parser.md R110 to R117. -/
def exampleFrame : Frame := 0x8D4840D6202CC371C32CE0576098#112

/-- A block that holds the example frame, received as an archive record of 130000 ns (R110). -/
def holdsFrame : State := { State.reset with frTs := 130000, frB := exampleFrame, frv := true }

/-- A block with a full record in the staging buffer. -/
def staged (r : Record) : State := { State.reset with stg := r, scnt := 22 }

/-- A block with a window of three places, two of them filled from the stream 5, 6. -/
def smallWindow : State := { State.reset with capacity := 3, wbuf := [5, 6], pos := 2 }

/-- The same window full, after the stream 5, 6, 7. -/
def fullWindow : State := { smallWindow with wbuf := [5, 6, 7], pos := 3 }

/-! ### Well-formedness: each check refuses an ill-formed term (R46) -/

theorem test_wellFormed_refuses_advn : ¬ Instr.WellFormed (.winAdvn 65536) := by decide
theorem test_wellFormed_refuses_get : ¬ Instr.WellFormed (.winGet 65536) := by decide
theorem test_wellFormed_refuses_byte : ¬ Instr.WellFormed (.frmByte 65536) := by decide
theorem test_wellFormed_limits :
    Instr.WellFormed (.winAdvn 65535) ∧ Instr.WellFormed (.winGet 0) ∧ Instr.WellFormed (.frmByte 65535) := by decide

/-! ### Decoding: words written out from R44 to R46, frames bit by bit from the patterns of R49 and R56 -/

theorem test_decode_system :
    decodeCommand 0x01000000#32 = .ok .sysStat := by decide

theorem test_decode_crc :
    decodeCommand 0x10000000#32 = .ok .crcClr ∧
    decodeCommand 0x1100008D#32 = .ok (.crcByte 0x8D#8) ∧
    decodeCommand 0x12000000#32 = .ok .crcRd ∧
    decodeCommand 0x130000FF#32 = .ok (.crcTab 0xFF#8) := by decide

theorem test_decode_window :
    decodeCommand 0x20000000#32 = .ok .winAdv ∧
    decodeCommand 0x2100FFFF#32 = .ok (.winAdvn 65535) ∧
    decodeCommand 0x220004AF#32 = .ok (.winGet 1199) ∧
    decodeCommand 0x23000000#32 = .ok .winPos ∧
    decodeCommand 0x24000000#32 = .ok .winFull := by decide

theorem test_decode_demodulator :
    decodeCommand 0x30000000#32 = .ok .demNext := by decide

theorem test_decode_parser :
    decodeCommand 0x400000A5#32 = .ok (.frmPutb 0xA5#8) ∧
    decodeCommand 0x41000000#32 = .ok .frmChk ∧
    decodeCommand 0x42000000#32 = .ok .frmDf ∧
    decodeCommand 0x43000000#32 = .ok .frmIcao ∧
    decodeCommand 0x44000000#32 = .ok .frmMe ∧
    decodeCommand 0x45000000#32 = .ok .frmTc ∧
    decodeCommand 0x46000000#32 = .ok .frmKind ∧
    decodeCommand 0x47000000#32 = .ok .frmTs ∧
    decodeCommand 0x4800000D#32 = .ok (.frmByte 13) := by decide

theorem test_decode_frames_tc0_to_tc7 :
    decodeFrame 0x8852E6B40134F0F2A74DE4651327#112
      = .ok (.frameTc0None 0#3 0x52E6B4#24 0x134F0F2A74DE4#51 0x651327#24) ∧
    decodeFrame 0x89A6A3A40C94590C5C7FD0D23F08#112
      = .ok (.frameTc1Ident 1#3 0xA6A3A4#24 0x494590C5C7FD0#51 0xD23F08#24) ∧
    decodeFrame 0x8A892F9012ECEE1818E811953198#112
      = .ok (.frameTc2Ident 2#3 0x892F90#24 0x2ECEE1818E811#51 0x953198#24) ∧
    decodeFrame 0x8B0ED9041C0F3AE8E25D9436F675#112
      = .ok (.frameTc3Ident 3#3 0x0ED904#24 0x40F3AE8E25D94#51 0x36F675#24) ∧
    decodeFrame 0x8D4840D6202CC371C32CE0576098#112
      = .ok (.frameTc4Ident 5#3 0x4840D6#24 0x02CC371C32CE0#51 0x576098#24) ∧
    decodeFrame 0x8D0999502F781B1600A35A6B0D54#112
      = .ok (.frameTc5None 5#3 0x099950#24 0x7781B1600A35A#51 0x6B0D54#24) ∧
    decodeFrame 0x8E11E20B30B9C73D9C17248D116E#112
      = .ok (.frameTc6None 6#3 0x11E20B#24 0x0B9C73D9C1724#51 0x8D116E#24) ∧
    decodeFrame 0x8F6CAD4A3E9D640F21DDB690C192#112
      = .ok (.frameTc7None 7#3 0x6CAD4A#24 0x69D640F21DDB6#51 0x90C192#24) := by decide

theorem test_decode_frames_tc8_to_tc15 :
    decodeFrame 0x881FB17C41C931F28C105DA170B3#112
      = .ok (.frameTc8None 0#3 0x1FB17C#24 0x1C931F28C105D#51 0xA170B3#24) ∧
    decodeFrame 0x89A09F764F94E8953F48F10FD630#112
      = .ok (.frameTc9Position 1#3 0xA09F76#24 0x794E8953F48F1#51 0x0FD630#24) ∧
    decodeFrame 0x8A93BD04532C6695E60AF50CB1E2#112
      = .ok (.frameTc10Position 2#3 0x93BD04#24 0x32C6695E60AF5#51 0x0CB1E2#24) ∧
    decodeFrame 0x8BF9EBDA5C5F663898D1908E8197#112
      = .ok (.frameTc11Position 3#3 0xF9EBDA#24 0x45F663898D190#51 0x8E8197#24) ∧
    decodeFrame 0x8CDBC49662511E2217BEAD6B4CB2#112
      = .ok (.frameTc12Position 4#3 0xDBC496#24 0x2511E2217BEAD#51 0x6B4CB2#24) ∧
    decodeFrame 0x8D24EDE66CF13D8A6A63EC922766#112
      = .ok (.frameTc13Position 5#3 0x24EDE6#24 0x4F13D8A6A63EC#51 0x922766#24) ∧
    decodeFrame 0x8E4EF8AA76876D8F6D0558AE97BA#112
      = .ok (.frameTc14Position 6#3 0x4EF8AA#24 0x6876D8F6D0558#51 0xAE97BA#24) ∧
    decodeFrame 0x8F2E44157CA71D1A61DBE2923A73#112
      = .ok (.frameTc15Position 7#3 0x2E4415#24 0x4A71D1A61DBE2#51 0x923A73#24) := by decide

theorem test_decode_frames_tc16_to_tc23 :
    decodeFrame 0x88A38FD582FAAB301850C518F135#112
      = .ok (.frameTc16Position 0#3 0xA38FD5#24 0x2FAAB301850C5#51 0x18F135#24) ∧
    decodeFrame 0x898C38FB8C8097B64CE422907A70#112
      = .ok (.frameTc17Position 1#3 0x8C38FB#24 0x48097B64CE422#51 0x907A70#24) ∧
    decodeFrame 0x8A0F420591A5CD9E7769B17F1505#112
      = .ok (.frameTc18Position 2#3 0x0F4205#24 0x1A5CD9E7769B1#51 0x7F1505#24) ∧
    decodeFrame 0x8BAE2EB19F6BB5881ED162C6F877#112
      = .ok (.frameTc19Velocity 3#3 0xAE2EB1#24 0x76BB5881ED162#51 0xC6F877#24) ∧
    decodeFrame 0x8C506BF2A4AF3B7731AF10EC66A7#112
      = .ok (.frameTc20Position 4#3 0x506BF2#24 0x4AF3B7731AF10#51 0xEC66A7#24) ∧
    decodeFrame 0x8D7403E4AE65EC5C90A9583F98E2#112
      = .ok (.frameTc21Position 5#3 0x7403E4#24 0x665EC5C90A958#51 0x3F98E2#24) ∧
    decodeFrame 0x8ECB5C74B5978A2E05319AC7A2EA#112
      = .ok (.frameTc22Position 6#3 0xCB5C74#24 0x5978A2E05319A#51 0xC7A2EA#24) ∧
    decodeFrame 0x8F3E7D1BBC986B14F4733F4CDD20#112
      = .ok (.frameTc23None 7#3 0x3E7D1B#24 0x4986B14F4733F#51 0x4CDD20#24) := by decide

theorem test_decode_frames_tc24_to_tc31 :
    decodeFrame 0x88867347C700487EBFF20657EE05#112
      = .ok (.frameTc24None 0#3 0x867347#24 0x700487EBFF206#51 0x57EE05#24) ∧
    decodeFrame 0x89BABCEDCE4DB272E6CC3A9BE4BC#112
      = .ok (.frameTc25None 1#3 0xBABCED#24 0x64DB272E6CC3A#51 0x9BE4BC#24) ∧
    decodeFrame 0x8AFAECBDD0F1CC12BD4ACE830E07#112
      = .ok (.frameTc26None 2#3 0xFAECBD#24 0x0F1CC12BD4ACE#51 0x830E07#24) ∧
    decodeFrame 0x8B6B0A18DE0E9F2A3AF4D45790F8#112
      = .ok (.frameTc27None 3#3 0x6B0A18#24 0x60E9F2A3AF4D4#51 0x5790F8#24) ∧
    decodeFrame 0x8C26E875E3E965EEEACBE26BF46C#112
      = .ok (.frameTc28None 4#3 0x26E875#24 0x3E965EEEACBE2#51 0x6BF46C#24) ∧
    decodeFrame 0x8D0A097CED5881F646E1F413DEEF#112
      = .ok (.frameTc29None 5#3 0x0A097C#24 0x55881F646E1F4#51 0x13DEEF#24) ∧
    decodeFrame 0x8EC3BAEAF4958E8EDE0D7ACA0213#112
      = .ok (.frameTc30None 6#3 0xC3BAEA#24 0x4958E8EDE0D7A#51 0xCA0213#24) ∧
    decodeFrame 0x8FE01F50FE828ED17F9ACA571242#112
      = .ok (.frameTc31None 7#3 0xE01F50#24 0x6828ED17F9ACA#51 0x571242#24) := by decide

/-- Each way of R48 for a word to be illegal, and a frame of another downlink format (R50). -/
theorem test_decode_illegal :
    decodeCommand 0x00000000#32 = .error (.opcode 0#8) ∧ decodeCommand 0xFFFFFFFF#32 = .error .reserved ∧
    decodeCommand 0x01010000#32 = .error .reserved ∧ decodeCommand 0x01000001#32 = .error .immediate ∧
    decodeCommand 0x11000100#32 = .error .immediate ∧ decodeCommand 0x49000000#32 = .error (.opcode 0x49#8) ∧
    decodeFrame 0x5D4840D6202CC371C32CE0576098#112 = .error (.downlinkFormat 11#5) := by decide

theorem test_table_words : decodeTableWord 32 0x220004AF = some (.winGet 1199) ∧ decodeTableWord 32 0 = none ∧
    decodeTableWord 112 0x8D4840D6202CC371C32CE0576098
      = some (.frameTc4Ident 5#3 0x4840D6#24 0x02CC371C32CE0#51 0x576098#24) := by decide

/-! ### The CRC unit (95_test_vectors.md 2.1 to 2.4) -/

theorem test_crcClr : answer (exec .crcClr { State.reset with crcr := 5 }) = ok 0 ∧
    nextWith (exec .crcClr { State.reset with crcr := 5 }) (fun t => t.crcr == 0) = true := by decide
/-- The example of R69. -/
theorem test_crcByte_reduces :
    nextWith (exec (.crcByte 0) { State.reset with crcr := 0x010000#24 }) (fun t => t.crcr == 0xFFF409#24) = true := by
  decide
/-- R66: the first three bytes only shift in. -/
theorem test_crcByte_shifts :
    nextWith (exec (.crcByte 0xFF) { State.reset with crcr := 0x00FFFF#24 }) (fun t => t.crcr == 0xFFFFFF#24) = true := by
  decide
theorem test_crcRd : answer (exec .crcRd { State.reset with crcr := 1 }) = ok 1 := by decide
/-- R63: entries 1 and 0x80 of the table. -/
theorem test_crcTab : answer (exec (.crcTab 1) State.reset) = ok 0xFFF409#64 ∧
    answer (exec (.crcTab 0x80) State.reset) = ok 0x0706C0#64 := by decide
/-- 95_test_vectors.md 2.3: four valid frames, a damaged one, and a frame with a zero checksum field. -/
theorem test_crc24_frames :
    crc24 0xFFF409 (frameBytes 0x8D4840D6202CC371C32CE0576098) = 0 ∧
    crc24 0xFFF409 (frameBytes 0x8D40621D58C382D690C8AC2863A7) = 0 ∧
    crc24 0xFFF409 (frameBytes 0x8D485020994409940838175B284F) = 0 ∧
    crc24 0xFFF409 (frameBytes 0x8DA05629EA21485CBF3F8CADAEEB) = 0 ∧
    crc24 0xFFF409 (frameBytes 0x8D4840D6202CC371C32CE0576099) = 1 ∧
    crc24 0xFFF409 (frameBytes 0x8DAE5BBCB6010000000000000000) = 0x8DFA4C := by decide +kernel

/-! ### The window (R74 to R83) -/

theorem test_winAdv_grows :
    nextWith (exec .winAdv { smallWindow with portS := [7, 8] })
      (fun t => t.wbuf == [5, 6, 7] && t.pos == 3 && t.portS == [8] && !t.eos) = true := by decide
theorem test_winAdv_slides_at_the_end :
    nextWith (exec .winAdv { fullWindow with srcEnded := true })
      (fun t => t.wbuf == [6, 7] && t.pos == 3 && t.eos) = true := by decide
theorem test_winAdvn_slides :
    nextWith (exec (.winAdvn 3) { smallWindow with portS := [7, 8, 9, 10] })
      (fun t => t.wbuf == [7, 8, 9] && t.pos == 5 && t.portS == [10]) = true := by decide
/-- R75: it does not stop early, and consumes what there is. -/
theorem test_winAdvn_past_the_end :
    nextWith (exec (.winAdvn 9) { smallWindow with portS := [7, 8], srcEnded := true })
      (fun t => t.wbuf == [7, 8] && t.pos == 4 && t.eos && t.busy == none) = true := by decide +kernel
theorem test_winGet : answer (exec (.winGet 1) smallWindow) = ok 6 ∧
    answer (exec (.winGet 2) smallWindow) = failed .eRange := by decide
theorem test_winPos : answer (exec .winPos fullWindow) = ok 3 := by decide
theorem test_winFull : answer (exec .winFull fullWindow) = ok 1 ∧ answer (exec .winFull smallWindow) = ok 0 := by decide

/-! ### The demodulator -/

/-- The worked example of R89. -/
theorem test_preamble :
    let at0 := fun v => { State.reset with wbuf := (List.range 47).map (patternAt 0 1000 v) }
    (at0 0).peakSum = 4000 ∧ (at0 10).floorSum = 100 ∧ (at0 10).nextPeakSum = 40 ∧ (at0 10).peakOk 0 = true ∧
    (at0 10).floorOk = true ∧ { State.reset with wbuf := List.replicate 47 10 }.peakOk 0 = false := by decide +kernel

/-- A full window whose first sample begins the synthetic frame of the example. -/
@[irreducible] def exampleWindow : List Nat := pattern exampleFrame 1000 10

/-- A block with that window. -/
def foundWindow : State := { State.reset with wbuf := exampleWindow, pos := 1200 }

theorem test_demodStep_accepts : foundWindow.demodStep 0 = .accept exampleFrame := by decide +kernel
/-- R95: the same window after a position of the same peak sum. -/
theorem test_demodStep_rejects_plateau : foundWindow.demodStep 4000 = .rejectPeak := by decide +kernel
/-- 95_test_vectors.md vector S11: no sample at all. -/
theorem test_demNext_empty_stream :
    nextWith (exec .demNext { State.reset with srcEnded := true })
      (fun t => t.portR == ok 0 && t.eos && !t.frv && t.len == 0) = true := by decide +kernel

/-! ### The parser (44_frame_parser.md R109 to R117, 95_test_vectors.md section 5) -/

theorem test_frmPutb : nextWith (exec (.frmPutb 0xA5) { State.reset with scnt := 21 })
      (fun t => t.scnt == 22 && stagedByte t.stg 21 == 0xA5) = true ∧
    answer (exec (.frmPutb 0) (staged 0)) = failed .eStage := by decide
theorem test_frmChk_valid :
    nextWith (exec .frmChk (staged 0x000000000001FBD08D4840D6202CC371C32CE0576098#176))
      (fun t => t.portR == ok 1 && t.frTs == 130000 && t.frB == exampleFrame && t.frv && t.scnt == 0) = true := by
  decide +kernel
theorem test_frmChk_invalid :
    nextWith (exec .frmChk (staged 0x000000000001FBD08D4840D6202CC371C32CE0576099#176))
      (fun t => t.portR == ok 0 && !t.frv && t.scnt == 0) = true := by decide +kernel
theorem test_accessors :
    answer (exec .frmDf holdsFrame) = ok 17 ∧ answer (exec .frmIcao holdsFrame) = ok 0x4840D6 ∧
    answer (exec .frmMe holdsFrame) = ok 0x202CC371C32CE0 ∧ answer (exec .frmTc holdsFrame) = ok 4 ∧
    answer (exec .frmKind holdsFrame) = ok 1 ∧ answer (exec .frmTs holdsFrame) = ok 130000 := by decide
theorem test_accessors_without_frame : answer (exec .frmTs State.reset) = failed .eNoFrame ∧
    answer (exec (.frmByte 14) State.reset) = failed .eNoFrame := by decide
theorem test_frmByte : answer (exec (.frmByte 13) holdsFrame) = ok 0x98 ∧
    answer (exec (.frmByte 14) holdsFrame) = failed .eRange := by decide
/-- 95_test_vectors.md 5.1: records of type codes 29, 11 and 19, each a frame row. -/
theorem test_frame_rows :
    nextWith (exec (.frameTc29None 5#3 0xA05629#24 0x221485CBF3F8C#51 0xADAEEB#24) (staged (0x80#176 <<< 168)))
      (fun t => t.portR == ok 1 && t.frTs == 9223372036854775808#64 && answer (exec .frmKind t) == ok 0) = true ∧
    nextWith (exec (.frameTc11Position 5#3 0x40621D#24 0x0C382D690C8AC#51 0x2863A7#24) (staged (1#176 <<< 112)))
      (fun t => t.portR == ok 1 && t.frTs == 1 && answer (exec .frmKind t) == ok 2) = true ∧
    nextWith (exec (.frameTc19Velocity 5#3 0x485020#24 0x1440994083817#51 0x5B284F#24) (staged 0))
      (fun t => t.portR == ok 1 && answer (exec .frmKind t) == ok 3) = true := by decide +kernel

/-! ### System, faults, reset -/

/-- The examples of R118. -/
theorem test_sysStat : answer (exec .sysStat State.reset) = ok 0 ∧
    answer (exec .sysStat { State.reset with err := 2 }) = ok 0x28 := by decide
theorem test_sysStat_full_and_frame :
    answer (exec .sysStat { fullWindow with frv := true, scnt := 22 }) = ok 0x1605 := by decide
/-- R155: a faulted block refuses, and a word that is not legal is refused too. -/
theorem test_faulted_block :
    answer (step ({ State.reset with err := 2 }.withFetchWord 32 0x12000000)) = failed .eFaulted ∧
    answer (step ({ State.reset with err := 2 }.withFetchWord 32 0x01000001)) = failed .eFaulted ∧
    answer (step ({ State.reset with err := 2 }.withFetchWord 32 0x01000000)) = ok 0x28 := by decide
theorem test_illegal_word :
    nextWith (step (State.reset.withFetchWord 32 0)) (fun t => t.err == 1 && t.portR == failed .eIllegal) = true := by
  decide
theorem test_reset_step : nextWith (step { fullWindow with rst := true, err := 3 })
    (fun t => t == { State.reset with capacity := 3, rst := true }) = true := by decide

/-! ### The written form and the primitives -/

/-- The examples of R60 and two pseudo-operations of R61. -/
theorem test_assembler :
    assembleLine "CRC.BYTE 0x8D".toList = some [.crcByte 0x8D] ∧
    assembleLine "WIN.GET 1199 ; -> 7".toList = some [.winGet 1199] ∧
    assembleLine "WIN.FILL".toList = some [.winAdvn 1200] ∧
    assembleLine "CRC.RUN 8d4A".toList = some [.crcClr, .crcByte 0x8D, .crcByte 0x4A, .crcRd] ∧
    assembleLine "CRC.BYTE 256".toList = none := by decide +kernel
/-- R61 with h of zero digits (log entry 16); 95_test_vectors.md 2.2 gives the empty sequence. FRM.REC needs 22 bytes. -/
theorem test_assembler_empty_sequence :
    assembleLine "CRC.RUN ; empty".toList = some [.crcClr, .crcRd] ∧
    assembleLine "CRC.GEN".toList = some (crcGen []) ∧ assembleLine "FRM.REC".toList = none := by decide +kernel
/-- 47_bit_byte_primitives.md R142 to R147. -/
theorem test_primitives :
    extractUnsigned 0x00202CC371C32CE0 51 5 = some 4 ∧ extractUnsigned 0 34 31 = none ∧
    extractUnsigned 0 0 32 = none ∧ extractUnsigned 0 (-1) 3 = none ∧
    testBit 0x8000000000000000 63 = some true ∧ testBit 0 64 = none ∧ testBit 0 (-1) = none ∧
    bytesInRange (frameBytes exampleFrame) 4 11 = some 0x202CC371C32CE0 ∧
    bytesInRange (frameBytes exampleFrame) 3 3 = some 0 ∧ bytesInRange (frameBytes exampleFrame) 0 9 = none ∧
    byteAt (frameBytes exampleFrame) 14 = none ∧ bytesOfHex ['8', 'd', '0'] = none ∧
    hexUpper6 0x00A1B2 = ['0', '0', 'A', '1', 'B', '2'] := by decide +kernel

/-! ### Witnesses: the hypotheses of each statement that has some are met together -/

/-- The word `w` next on port C. -/
def withWord (w : CommandWord) (s : State) : State := { s with portC := [w] }

/-- A working block near the end of the domain: the last sample of the domain and of its width is ready. -/
def working : State :=
  { holdsFrame with wbuf := [3, 2 ^ 35 - 1], pos := 2 ^ 57 - 2, portS := [2 ^ 35 - 1], srcEnded := true, scnt := 22 }

theorem working_inv : working.Inv where
  capacity_legal := by decide
  len_le_capacity := by decide
  len_le_pos := by decide
  pos_in_domain := by decide
  samples_fit := by decide
  eos_source := by decide
  eos_not_full := by decide
  frame_valid := fun _ => (by decide +kernel : validate working.poly working.frB = true)
  err_code := by decide
  busy_legal := fun b h => by cases h

/-- The words on port C are no part of the invariant. -/
theorem inv_withWord {s : State} (h : s.Inv) (w : CommandWord) : (withWord w s).Inv :=
  ⟨h.1, h.2, h.3, h.4, h.5, h.6, h.7, h.8, h.9, h.10⟩

/-- A DEM.NEXT that waits in its fill phase. -/
def waiting : State := { State.reset with wbuf := [1], pos := 1, busy := some .demFill }

theorem waiting_inv : waiting.Inv where
  capacity_legal := by decide
  len_le_capacity := by decide
  len_le_pos := by decide
  pos_in_domain := by decide
  samples_fit := by decide
  eos_source := by decide
  eos_not_full := by decide
  frame_valid := by decide
  err_code := by decide
  busy_legal := fun b h => by
    cases h
    exact ⟨rfl, rfl, rfl, (by decide : waiting.len < waiting.capacity)⟩

/-- The stream has ended. -/
def ended : State := { State.reset with wbuf := [1], pos := 1, eos := true, srcEnded := true, portC := [0x20000000#32] }

theorem ended_inv : ended.Inv where
  capacity_legal := by decide
  len_le_capacity := by decide
  len_le_pos := by decide
  pos_in_domain := by decide
  samples_fit := by decide
  eos_source := by decide
  eos_not_full := by decide
  frame_valid := by decide
  err_code := by decide
  busy_legal := fun b h => by cases h

theorem witness_DecodeOfEncode : Instr.WellFormed (.winAdvn 65535) ∧
    Instr.WellFormed (.frameTc31None 7#3 0xFFFFFF#24 (-1) 0) := by decide

theorem witness_EncodeOfDecode : decode (.command 0x2200FFFF#32) = .ok (.winGet 65535) ∧
    decode (.frame exampleFrame) = .ok (.frameTc4Ident 5#3 0x4840D6#24 0x02CC371C32CE0#51 0x576098#24) := by decide

theorem witness_IllegalWordsRaiseIllegal : (withWord 0x11000100#32 State.reset).Ready ∧
    (withWord 0x11000100#32 State.reset).err = 0 ∧ Statements.illegalWord 0x11000100#32 :=
  ⟨⟨rfl, rfl⟩, rfl, .inr (.inr (.inr ⟨by decide, by decide⟩))⟩

theorem witness_StepRunsDecodedCommand : (withWord 0x2200FFFF#32 State.reset).Ready ∧
    (withWord 0x2200FFFF#32 State.reset).portC = [0x2200FFFF#32] ∧
    decodeCommand 0x2200FFFF#32 = .ok (.winGet 65535) := ⟨⟨rfl, rfl⟩, rfl, by decide⟩

theorem witness_StepRunsStagedFrame :
    let s := withWord 0x41000000#32 (staged 0x000000000001FBD08D4840D6202CC371C32CE0576098#176)
    s.Ready ∧ s.portC = [0x41000000#32] ∧ s.scnt.val = 22 ∧
    decodeFrame (recordFrame s.stg) = .ok (.frameTc4Ident 5#3 0x4840D6#24 0x02CC371C32CE0#51 0x576098#24) :=
  ⟨⟨rfl, rfl⟩, rfl, rfl, by decide⟩

theorem witness_FaultedBlockRefusesAllButStatus :
    let s := withWord 0x01000000#32 { State.reset with err := 4 }
    let u := withWord 0x01000001#32 { State.reset with err := 1 }
    (s.Ready ∧ s.err ≠ 0 ∧ s.portC = [0x01000000#32]) ∧ (u.Ready ∧ u.err ≠ 0 ∧ u.portC = [0x01000001#32]) ∧
    s.rst = false ∧ (∃ t, step s = .next t) ∧ (∃ t, step { s with rst := true } = .next t) :=
  ⟨⟨⟨rfl, rfl⟩, by decide, rfl⟩, ⟨⟨rfl, rfl⟩, by decide, rfl⟩, rfl, ⟨_, rfl⟩, ⟨_, rfl⟩⟩

theorem witness_ResetStateIsObservable : ({ holdsFrame with rst := true } : State).rst = true ∧
    0 < ({ holdsFrame with rst := true } : State).capacity ∧ isAccessor (.frmByte 0) := ⟨rfl, by decide, trivial⟩

theorem witness_ResetKeepsTheStream :
    let s : State := { ended with rst := true }
    s.rst = true ∧ s.srcEnded = true ∧ s.portS = [] := ⟨rfl, rfl, rfl⟩

theorem witness_IdleBlockHolds : State.reset.Ready ∧ State.reset.portC = [] := ⟨⟨rfl, rfl⟩, rfl⟩

/-- A waiting command of each kind, at the bounds of what is left to do. -/
theorem witness_WaitingCommandHolds :
    (∀ b, Busy.legal { waiting with busy := some b } b → ({ waiting with busy := some b } : State).rst = false ∧
      ({ waiting with busy := some b } : State).eos = false ∧ ({ waiting with busy := some b } : State).portS = [] ∧
      ({ waiting with busy := some b } : State).srcEnded = false) ∧
    Busy.legal waiting .adv ∧ Busy.legal waiting (.advN 1) ∧ Busy.legal waiting (.advN 65535) ∧
    Busy.legal waiting .demFill ∧ Busy.legal fullWindow (.demStep 5) ∧
    Busy.legal { waiting with frv := true } (.demSkip 1200) :=
  ⟨fun _ _ => ⟨rfl, rfl, rfl, rfl⟩, trivial, ⟨by decide, by decide⟩, ⟨by decide, by decide⟩,
    (by decide : waiting.len < waiting.capacity), ⟨by decide, by decide⟩, ⟨by decide, by decide, rfl⟩⟩

/-- A waiting command for each of the three that can wait. -/
theorem witness_WaitingDoesNotChangeTheResult :
    State.reset.err = 0 ∧ State.reset.busy = none ∧
    pullsSamples .winAdv ∧ (∃ t, exec .winAdv State.reset = .next t ∧ t.busy = some .adv) ∧
    pullsSamples (.winAdvn 65535) ∧ (∃ t, exec (.winAdvn 65535) State.reset = .next t ∧ t.busy = some (.advN 65535)) ∧
    pullsSamples .demNext ∧ (∃ t, exec .demNext State.reset = .next t ∧ t.busy = some .demFill) :=
  ⟨rfl, rfl, trivial, ⟨_, rfl, rfl⟩, trivial, ⟨_, rfl, rfl⟩, trivial, by
    obtain ⟨t, h, hp⟩ := exists_next (p := fun t => t.busy == some .demFill)
      (show nextWith (exec .demNext State.reset) _ = true by decide +kernel)
    exact ⟨t, h, by simpa using hp⟩⟩

/-- One command that is answered and one that waits. -/
theorem witness_EveryCommandIsAnsweredOnce :
    let s := withWord 0x01000000#32 State.reset
    let u := withWord 0x20000000#32 State.reset
    (s.Ready ∧ s.portC = [0x01000000#32] ∧ ∃ t, step s = .next t) ∧
    (u.Ready ∧ u.portC = [0x20000000#32] ∧ ∃ t, step u = .next t) :=
  ⟨⟨⟨rfl, rfl⟩, rfl, ⟨_, rfl⟩⟩, ⟨⟨rfl, rfl⟩, rfl, ⟨_, rfl⟩⟩⟩

theorem working_next : ∃ t, step (withWord 0x20000000#32 working) = .next t := by
  obtain ⟨t, h, -⟩ := exists_next (p := fun _ => true)
    (show nextWith (step (withWord 0x20000000#32 working)) _ = true by decide +kernel)
  exact ⟨t, h⟩

theorem witness_StepKeepsInvariant :
    ((withWord 0x20000000#32 working).Inv ∧
      ∃ t, step (withWord 0x20000000#32 working) = .next t) ∧
    waiting.Inv ∧ ∃ t, step waiting = .next t :=
  ⟨⟨inv_withWord working_inv _, working_next⟩, waiting_inv, by
    obtain ⟨t, h, -⟩ := exists_next (p := fun _ => true) (show nextWith (step waiting) _ = true by decide +kernel)
    exact ⟨t, h⟩⟩

theorem witness_EnvironmentKeepsInvariant : waiting.Inv := waiting_inv

theorem witness_RunsKeepInvariant : waiting.Inv ∧ Reachable waiting ((waiting.deliver [2]).endStream.assertReset) :=
  ⟨waiting_inv, .assertReset (.endStream (.deliver [2] (.refl _)))⟩

theorem working_inDomain (w : CommandWord) : (withWord w working).InDomain :=
  ⟨(by decide : ∀ v ∈ working.portS, v < 2 ^ working.sampleWidth),
    (by decide : working.pos.toNat + working.portS.length < Config.positionLimit)⟩

theorem witness_NoStopInsideTheDomain : (withWord 0x20000000#32 working).Inv ∧
    (withWord 0x20000000#32 working).InDomain := ⟨inv_withWord working_inv _, working_inDomain _⟩

theorem witness_WholeStreamCommandsAreAnswered :
    let s : State := withWord 0x30000000#32 working
    s.Inv ∧ s.InDomain ∧ s.WholeStream ∧ s.Ready ∧ s.portC = [0x30000000#32] :=
  ⟨inv_withWord working_inv _, working_inDomain _, rfl, ⟨rfl, rfl⟩, rfl⟩

/-- Any block with the window of `foundWindow`, at a position and with a stream to come. -/
def foundFrom (base : State) (pos : Word64) (portS : List Nat) : State :=
  { base with
    poly := 0xFFF409#24, capacity := 1200, sampleWidth := 35, wbuf := exampleWindow, err := 0, pos := pos,
    portS := portS, srcEnded := true }

/-- The same from reset. -/
abbrev foundAt (pos : Word64) (portS : List Nat) : State := foundFrom State.reset pos portS

theorem foundFrom_accepts (base : State) (pos : Word64) (portS : List Nat) :
    (foundFrom base pos portS).demodStep 0 = .accept exampleFrame :=
  (demodStep_congr (t := foundWindow) rfl rfl 0).trans test_demodStep_accepts

theorem length_pattern (f : Frame) (high low : Nat) : (pattern f high low).length = 1200 := by
  unfold pattern
  rw [List.length_map, List.length_range]

theorem length_exampleWindow : exampleWindow.length = 1200 := by
  unfold exampleWindow
  exact length_pattern _ _ _

theorem foundFrom_len (base : State) (pos : Word64) (portS : List Nat) :
    (foundFrom base pos portS).len = (foundFrom base pos portS).capacity := length_exampleWindow

theorem witness_StopsOutsideTheDomain :
    (State.reset.err = 0 ∧ 2 ^ State.reset.sampleWidth ≤ 2 ^ 35) ∧
    (2 ^ 35 - 1 < 2 ^ State.reset.sampleWidth ∧ 2 ^ 57 ≤ (BitVec.ofNat 64 (2 ^ 57 - 1)).toNat + 1) ∧
    ((foundAt (BitVec.ofNat 64 (2 ^ 57)) []).err = 0 ∧ 1196 ≤ (foundAt (BitVec.ofNat 64 (2 ^ 57)) []).capacity ∧
      (foundAt (BitVec.ofNat 64 (2 ^ 57)) []).len = (foundAt (BitVec.ofNat 64 (2 ^ 57)) []).capacity ∧
      (foundAt (BitVec.ofNat 64 (2 ^ 57)) []).demodStep 0 = .accept exampleFrame ∧ 2 ^ 57 ≤ (foundAt (BitVec.ofNat 64 (2 ^ 57)) []).pos.toNat) ∧
    ({ State.reset with capacity := 1195 } : State).capacity < 1196 :=
  ⟨⟨rfl, by decide⟩, ⟨by decide, by decide⟩,
    ⟨rfl, by decide, foundFrom_len _ _ _, foundFrom_accepts _ _ _, by simp [foundFrom]⟩, by decide⟩

/-- A command of each unit that has a next state. -/
theorem witness_CommandsTouchOnlyTheirUnit :
    (∃ t, exec .winPos State.reset = .next t) ∧ ¬ pullsSamples .winPos ∧ ¬ isFrameRow .winPos ∧
    (∃ t, exec .crcClr State.reset = .next t) ∧ (∃ t, exec (.winAdvn 1) State.reset = .next t) ∧
    ∃ t, exec (.frmPutb 0) State.reset = .next t :=
  ⟨⟨_, rfl⟩, fun h => h, (by rintro ⟨f, h⟩; cases h), ⟨_, rfl⟩, ⟨_, rfl⟩, ⟨_, rfl⟩⟩

theorem witness_FaultsArePrecise : State.reset.err = 0 ∧ ∃ t, exec (.winGet 0) State.reset = .next t ∧ t.err ≠ 0 :=
  ⟨rfl, _, rfl, by decide⟩

/-- At the bounds: the index LEN, the byte 14, an accessor without a frame, 21 and 22 staged bytes. -/
theorem witness_FaultsAreRaisedExactlyHere :
    isCommand (.winGet 2) ∧ (∃ t, exec (.winGet 2) smallWindow = .next t ∧ t.err = 2) ∧ smallWindow.len = 2 ∧
    isCommand (.frmByte 14) ∧ (∃ t, exec (.frmByte 14) holdsFrame = .next t ∧ t.err = 2) ∧
    isCommand .frmTs ∧ (∃ t, exec .frmTs State.reset = .next t ∧ t.err = 3) ∧
    isCommand .frmChk ∧ (∃ t, exec .frmChk { State.reset with scnt := 21 } = .next t ∧ t.err = 4) ∧
    isCommand (.frmPutb 0) ∧ (∃ t, exec (.frmPutb 0) (staged 0) = .next t ∧ t.err = 4) :=
  ⟨⟨_, rfl⟩, ⟨_, rfl, rfl⟩, rfl, ⟨_, rfl⟩, ⟨_, rfl, rfl⟩, ⟨_, rfl⟩, ⟨_, rfl, rfl⟩, ⟨_, rfl⟩, ⟨_, rfl, rfl⟩,
    ⟨_, rfl⟩, ⟨_, rfl, rfl⟩⟩

theorem witness_CrcCommandsComplete : State.reset.err = 0 := rfl

theorem witness_OnlyCrcCommandsWriteCrcr :
    (State.reset.err = 0 ∧ ∃ t, exec .crcClr State.reset = .next t) ∧
    (∃ t, exec (.crcByte 255) State.reset = .next t) ∧ (∃ t, exec .crcRd State.reset = .next t) ∧
    (({ State.reset with err := 1 } : State).err ≠ 0 ∧ ∃ t, exec .crcClr { State.reset with err := 1 } = .next t) :=
  ⟨⟨rfl, _, rfl⟩, ⟨_, rfl⟩, ⟨_, rfl⟩, by decide, _, rfl⟩

/-- R65, R66: the checksum of the one byte 1 is entry 1 of the table. -/
theorem witness_ChecksumBytesGiveZeroResidue : crc24 0xFFF409#24 ([1] ++ bytesOfWord24 0xFFF409#24) = 0 := by decide

theorem witness_CrcSequenceComputesCrc24 :
    (∀ i ∈ [Instr.crcByte 1, .winPos, .crcByte 2], i ≠ .crcClr) ∧
    ∃ t, execAll (.crcClr :: [.crcByte 1, .winPos, .crcByte 2] ++ [.crcRd]) State.reset = .next t ∧ t.err = 0 :=
  ⟨by decide, by
    obtain ⟨t, h, hp⟩ := exists_next (p := fun t => t.err == 0)
      (show nextWith (execAll (.crcClr :: [.crcByte 1, .winPos, .crcByte 2] ++ [.crcRd]) State.reset) _ = true by decide)
    exact ⟨t, h, by simpa using hp⟩⟩

theorem witness_ChecksumPseudoOperations : holdsFrame.err = 0 := rfl

/-- The widest sample at the last position of the domain; the end of the stream; neither. -/
theorem witness_WinAdvMovesTheWindow :
    (working.err = 0 ∧ working.portS = [2 ^ 35 - 1] ∧ 2 ^ 35 - 1 < 2 ^ working.sampleWidth ∧
      working.pos.toNat + 1 < 2 ^ 57) ∧
    (ended.portS = [] ∧ ended.srcEnded = true) ∧ State.reset.portS = [] ∧ State.reset.srcEnded = false :=
  ⟨⟨rfl, rfl, by decide, by decide⟩, ⟨rfl, rfl⟩, rfl, rfl⟩

/-- As many as are ready; one more at the end of the stream; one more before it. -/
theorem witness_WinAdvnSlidesTheWindow :
    let s : State := { smallWindow with portS := [7, 8] }
    (s.err = 0 ∧ 0 < s.capacity ∧ s.len ≤ s.capacity ∧ (∀ v ∈ s.portS.take 3, v < 2 ^ s.sampleWidth) ∧
      s.pos.toNat + min 3 s.portS.length < 2 ^ 57) ∧
    2 ≤ s.portS.length ∧ s.portS.length < 3 ∧ s.srcEnded = false ∧ s.endStream.srcEnded = true := by decide

/-- Nothing ready; one sample fewer than asked for; a rejected position with nothing ready. -/
theorem witness_WaitingCommandsRememberWhatIsLeft :
    (State.reset.err = 0 ∧ State.reset.portS = [] ∧ State.reset.srcEnded = false) ∧
    (let s : State := { smallWindow with portS := [7, 8] }
     s.err = 0 ∧ 0 < s.capacity ∧ s.len ≤ s.capacity ∧ (∀ v ∈ s.portS, v < 2 ^ s.sampleWidth) ∧
      s.pos.toNat + s.portS.length < 2 ^ 57 ∧ s.portS.length < 3 ∧ s.srcEnded = false) ∧
    (fullWindow.len = fullWindow.capacity ∧ (∀ c, fullWindow.demodStep 5 ≠ .accept c) ∧ fullWindow.portS = [] ∧
      fullWindow.srcEnded = false) := by
  refine ⟨by decide, by decide, by decide, fun c h => ?_, rfl, rfl⟩
  have : fullWindow.demodStep 5 = .rejectPeak := by decide
  rw [this] at h
  cases h

/-- The youngest sample, the index LEN and the greatest index. -/
theorem witness_WinGetReadsTheWindow :
    smallWindow.err = 0 ∧ 1 < smallWindow.wbuf.length ∧ smallWindow.len ≤ 2 ∧ 65535 < 65536 :=
  ⟨rfl, by decide, by decide, by norm_num⟩

theorem witness_WinPosAndWinFullAnswer : fullWindow.err = 0 := rfl

theorem witness_PosCountsConsumedSamples : working.rst = false ∧
    ∃ t, step (withWord 0x20000000#32 working) = .next t := ⟨rfl, working_next⟩

theorem witness_EosIsStickyAndFullStaysLow : ended.Inv ∧ ended.rst = false ∧ ended.eos = true ∧
    ∃ t, step ended = .next t := by
  refine ⟨ended_inv, rfl, rfl, ?_⟩
  obtain ⟨t, h, -⟩ := exists_next (p := fun _ => true) (show nextWith (step ended) _ = true by decide +kernel)
  exact ⟨t, h⟩

theorem witness_DemodStepTestsOnePosition : (7 : Nat) < 8 ∧ (13 : Nat) < 14 := by decide

theorem ready_count (pos : Word64) (n : Nat) : (foundAt pos (List.replicate n 0)).portS.length = n :=
  List.length_replicate

theorem foundAt_domain {p n : Nat} (hp : p + n < 2 ^ 57) :
    (foundAt (BitVec.ofNat 64 p) (List.replicate n 0)).pos.toNat
      + min 1200 (foundAt (BitVec.ofNat 64 p) (List.replicate n 0)).portS.length < 2 ^ 57 := by
  have h1 : (foundAt (BitVec.ofNat 64 p) (List.replicate n 0)).portS.length = n := ready_count _ _
  have h2 : (foundAt (BitVec.ofNat 64 p) (List.replicate n 0)).pos.toNat = p :=
    (BitVec.toNat_ofNat p 64).trans (Nat.mod_eq_of_lt (by omega))
  omega

theorem flat_fits (n k : Nat) : ∀ v ∈ (List.replicate n 0).take k, v < 2 ^ 35 := by
  intro v hv
  have h := List.eq_of_mem_replicate (List.mem_of_mem_take hv)
  subst h
  decide

/-- The first position of a scan holds a frame; 1200 samples are ready, and one fewer before the end of the stream. -/
theorem witness_DemNextEmitsAcceptedFrame :
    let s := foundAt (BitVec.ofNat 64 (2 ^ 57 - 1201)) (List.replicate 1200 0)
    let u := foundAt (BitVec.ofNat 64 (2 ^ 57 - 1200)) (List.replicate 1199 0)
    (s.err = 0 ∧ 1196 ≤ s.capacity ∧ s.len = s.capacity ∧ s.demodStep 0 = .accept exampleFrame ∧
      (∀ v ∈ s.portS.take 1200, v < 2 ^ s.sampleWidth) ∧ s.pos.toNat + min 1200 s.portS.length < 2 ^ 57 ∧
      1200 ≤ s.portS.length) ∧
    (u.err = 0 ∧ 1196 ≤ u.capacity ∧ u.len = u.capacity ∧ u.demodStep 0 = .accept exampleFrame ∧
      (∀ v ∈ u.portS.take 1200, v < 2 ^ u.sampleWidth) ∧ u.pos.toNat + min 1200 u.portS.length < 2 ^ 57 ∧
      u.portS.length < 1200 ∧ u.srcEnded = true) := by
  exact ⟨⟨rfl, by decide, foundFrom_len _ _ _, foundFrom_accepts _ _ _, flat_fits _ _, foundAt_domain (by norm_num),
      (ready_count _ _).ge⟩,
    ⟨rfl, by decide, foundFrom_len _ _ _, foundFrom_accepts _ _ _, flat_fits _ _, foundAt_domain (by norm_num),
      (ready_count _ 1199).trans_lt (by norm_num), rfl⟩⟩

/-- A block with a window of one sample and `n` samples ready, at a position, with the end mark given or not. -/
def filling (p n : Nat) (ended : Bool) : State :=
  { State.reset with wbuf := [7], pos := BitVec.ofNat 64 p, portS := List.replicate n 0, srcEnded := ended }

theorem filling_count (p n : Nat) (ended : Bool) : (filling p n ended).portS.length = n := List.length_replicate

/-- What `DemNextFillsTheWindow` asks of a state, whatever port S holds. -/
def Fillable (s : State) (missing : Nat) : Prop :=
  s.err = 0 ∧ 1196 ≤ s.capacity ∧ s.len < s.capacity ∧ s.eos = false ∧ s.len + missing = s.capacity ∧
    (∀ v ∈ s.portS.take missing, v < 2 ^ s.sampleWidth) ∧ s.pos.toNat + min missing s.portS.length < 2 ^ 57

theorem filling_fillable {p n : Nat} (ended : Bool) (hp : p + n < 2 ^ 57) : Fillable (filling p n ended) 1199 := by
  refine ⟨rfl, (by decide : 1196 ≤ 1200), (by decide : 1 < 1200), rfl, (by decide : 1 + 1199 = 1200), flat_fits n 1199, ?_⟩
  have h1 := filling_count p n ended
  have h2 : (filling p n ended).pos.toNat = p := (BitVec.toNat_ofNat p 64).trans (Nat.mod_eq_of_lt (by omega))
  omega

/-- Exactly the missing samples are ready, up to the end of the domain; one fewer, with and without the end mark; and the
first DEM.NEXT after reset, with nothing ready. -/
theorem witness_DemNextFillsTheWindow :
    (Fillable (filling (2 ^ 57 - 1200) 1199 false) 1199 ∧ 1199 ≤ (filling (2 ^ 57 - 1200) 1199 false).portS.length) ∧
    (∀ ended, Fillable (filling (2 ^ 57 - 1199) 1198 ended) 1199 ∧
      (filling (2 ^ 57 - 1199) 1198 ended).portS.length < 1199 ∧
      (filling (2 ^ 57 - 1199) 1198 ended).srcEnded = ended) ∧
    (Fillable State.reset 1200 ∧ State.reset.portS.length < 1200 ∧ State.reset.srcEnded = false) :=
  ⟨⟨filling_fillable false (by norm_num), (filling_count _ _ _).ge⟩,
    fun ended => ⟨filling_fillable ended (by norm_num), (filling_count _ 1198 _).trans_lt (by norm_num), rfl⟩,
    ⟨rfl, by decide, by decide, rfl, by decide, fun v hv => by simp [State.reset] at hv, by decide⟩, by decide, rfl⟩

/-- A small full window whose position is rejected, with a sample ready, at the end of the stream, and with neither. -/
theorem witness_RejectedPositionMovesByOne :
    fullWindow.len = fullWindow.capacity ∧ 0 < fullWindow.capacity ∧
    (∀ c, fullWindow.demodStep 5 ≠ .accept c) ∧
    (∃ v rest, ({ fullWindow with portS := [2 ^ 35 - 1] } : State).portS = v :: rest ∧ v < 2 ^ fullWindow.sampleWidth ∧
      fullWindow.pos.toNat + 1 < 2 ^ 57) ∧
    fullWindow.portS = [] ∧ fullWindow.srcEnded = false ∧ fullWindow.endStream.srcEnded = true := by
  refine ⟨by decide, by decide, fun c h => ?_, ⟨_, _, rfl, by decide, by decide⟩, rfl, rfl, rfl⟩
  have : fullWindow.demodStep 5 = .rejectPeak := by decide
  rw [this] at h
  cases h

theorem witness_DemNextReturnsInTwoWays :
    let s := foundAt (BitVec.ofNat 64 (2 ^ 57 - 1)) []
    s.err = 0 ∧ 1196 ≤ s.capacity ∧ s.len ≤ s.capacity ∧ s.InDomain ∧ s.srcEnded = true :=
  ⟨rfl, by decide, (foundFrom_len _ _ _).le, ⟨by simp [foundFrom], by simp [foundFrom, Config.positionLimit]⟩, rfl⟩

theorem witness_DemNextAfterTheEndAnswersZero :
    let s : State := { ended with wbuf := List.replicate 1199 0 }
    s.err = 0 ∧ 1196 ≤ s.capacity ∧ s.eos = true ∧ s.len < s.capacity :=
  ⟨rfl, by decide, rfl, by
    show (List.replicate 1199 0).length < 1200
    rw [List.length_replicate]
    decide⟩

/-- DEM.NEXT in `foundFrom`: the emission and the skip of 1200 samples, when the stream to come is long enough. -/
theorem foundFrom_emits {base : State} {pos : Word64} {first rest : List Nat} (hl : first.length = 1200) (hf : ∀ v ∈ first, v < 2 ^ 35)
    (hp : pos.toNat + 1200 < 2 ^ 57) :
    exec .demNext (foundFrom base pos (first ++ rest)) = .next ({ foundFrom base pos (first ++ rest) with
      frTs := pos * 100, frB := exampleFrame, frv := true, wbuf := first, pos := pos + 1200, portS := rest }.respond
        .ok 1) := by
  have hw : (foundFrom base pos (first ++ rest)).wbuf.length = 1200 := length_exampleWindow
  have hfull : (foundFrom base pos (first ++ rest)).full = true := State.full_iff.mpr (foundFrom_len _ _ _)
  show (foundFrom base pos (first ++ rest)).command _ = _
  rw [State.command_healthy rfl, if_neg (by show ¬ 1200 < Config.minCapacity; decide), demFill, foundFrom_len, Nat.sub_self]
  have hscan : scan (foundFrom base pos (first ++ rest)).portS 0 (foundFrom base pos (first ++ rest))
      = .found exampleFrame (foundFrom base pos (first ++ rest)) := by
    cases (foundFrom base pos (first ++ rest)).portS <;> simp only [scan, scanTurn, hfull, foundFrom_accepts, if_true]
  show demScan 0 (foundFrom base pos (first ++ rest)) = _
  rw [demScan, hscan]
  show demEmit _ _ = _
  rw [demEmit, if_neg (by show ¬ Config.positionLimit ≤ pos.toNat; simp only [Config.positionLimit]; omega), demSkip,
    advanceBy_full]
  · show Host.Outcome.next _ = _
    have h1 : (first ++ rest).take 1200 = first := by rw [← hl]; simp
    have h2 : (first ++ rest).drop 1200 = rest := by rw [← hl]; simp
    have h3 : (exampleWindow ++ first).drop 1200 = first := List.drop_left' length_exampleWindow
    simp only [foundFrom, Config.messageSamples, h1, h2, h3]
    rfl
  · exact foundFrom_len base pos (first ++ rest)
  · show 0 < 1200
    decide
  · simp [foundFrom, Config.messageSamples, hl]
  · intro v hv
    refine hf v ?_
    have h1 : (first ++ rest).take 1200 = first := by rw [← hl]; simp
    simpa only [foundFrom, Config.messageSamples, h1] using hv
  · show pos.toNat + 1200 < Config.positionLimit
    exact hp

theorem mem_pattern {f : Frame} {high low v : Nat} (h : v ∈ pattern f high low) : v = high ∨ v = low := by
  obtain ⟨j, -, rfl⟩ := List.mem_map.mp h
  unfold patternAt
  split
  · exact .inl rfl
  · split
    · exact .inl rfl
    · split
      · exact .inl rfl
      · exact .inr rfl

theorem exampleWindow_fits : ∀ v ∈ exampleWindow, v < 2 ^ 35 := by
  unfold exampleWindow
  intro v hv
  rcases mem_pattern hv with rfl | rfl <;> decide

/-- Two frames back to back. -/
theorem witness_EmittedTimestampsGrow :
    ∃ s t u : State, s.err = 0 ∧ exec .demNext s = .next t ∧ t.busy = none ∧ t.portR = some ⟨.ok, 1⟩ ∧
      exec .demNext t = .next u ∧ u.busy = none ∧ u.portR = some ⟨.ok, 1⟩ := by
  have h1 := foundFrom_emits (base := State.reset) (pos := 1200) (rest := List.replicate 1200 0) length_exampleWindow
    exampleWindow_fits (by decide)
  obtain ⟨t, ht, hb, hr, hshape⟩ : ∃ t, exec .demNext (foundAt 1200 (exampleWindow ++ List.replicate 1200 0)) = .next t ∧
      t.busy = none ∧ t.portR = some ⟨.ok, 1⟩ ∧ t = foundFrom t 2400 (List.replicate 1200 0) := ⟨_, h1, rfl, rfl, rfl⟩
  have h2 := foundFrom_emits (base := t) (pos := 2400) (first := List.replicate 1200 0) (rest := [])
    List.length_replicate (fun v hv => by rw [List.eq_of_mem_replicate hv]; decide) (by decide)
  rw [List.append_nil, ← hshape] at h2
  exact ⟨_, t, _, rfl, ht, hb, hr, h2, rfl, rfl⟩

theorem witness_FlatSignalYieldsNoFrame :
    let s : State := { State.reset with wbuf := [9, 9], pos := 2, portS := [9, 9, 9], srcEnded := true }
    s.err = 0 ∧ 1196 ≤ s.capacity ∧ s.len ≤ s.capacity ∧ s.InDomain ∧ s.srcEnded = true ∧ (∀ x ∈ s.wbuf, x = 9) ∧
      ∀ x ∈ s.portS, x = 9 :=
  ⟨rfl, by decide, by decide, ⟨by decide, by decide⟩, rfl, by decide, by decide⟩

/-- A full window that holds a synthetic frame of the lowest contrast that passes, and 1200 samples more. -/
def contrastWindow (f : Frame) : State := { foundAt 1200 (List.replicate 1200 0) with wbuf := pattern f 1000 400 }

theorem contrastWindow_wbuf (f : Frame) : (contrastWindow f).wbuf = pattern f 1000 400 := by
  simp only [contrastWindow]

/-- The frame with its own and with a damaged checksum. -/
theorem witness_SyntheticFrameIsFound :
    (∀ f, (contrastWindow f).err = 0 ∧ (contrastWindow f).capacity = 1200 ∧
      (contrastWindow f).wbuf = pattern f 1000 400 ∧ (contrastWindow f).poly = 0xFFF409#24 ∧
      1200 ≤ (contrastWindow f).portS.length ∧
      (∀ v ∈ (contrastWindow f).portS.take 1200, v < 2 ^ (contrastWindow f).sampleWidth) ∧
      (contrastWindow f).pos.toNat + 1200 < 2 ^ 57) ∧
    10 * 400 ≤ 4 * 1000 ∧ frameFormat exampleFrame = 17#5 ∧ frameFormat (exampleFrame ^^^ 1) = 17#5 ∧
    crc24 0xFFF409#24 (frameBytes exampleFrame) = 0 ∧ crc24 0xFFF409#24 (frameBytes (exampleFrame ^^^ 1)) ≠ 0 :=
  ⟨fun f => ⟨rfl, rfl, contrastWindow_wbuf f, rfl, (ready_count 1200 1200).ge, flat_fits _ _, by
      show (1200 : Word64).toNat + 1200 < 2 ^ 57
      decide⟩,
    by norm_num, by decide, by decide, by decide +kernel, by decide +kernel⟩

/-- The last byte of a record, and one more. -/
theorem witness_FrmPutbStagesOneByte :
    ({ State.reset with scnt := 21 } : State).err = 0 ∧ ({ State.reset with scnt := 21 } : State).scnt.val < 22 ∧
    (staged 0).err = 0 ∧ (staged 0).scnt.val = 22 ∧ (20 : Nat) < 22 ∧ 20 ≠ 21 := by decide

/-- Too few bytes, a valid record, an invalid record. -/
theorem witness_FrmChkBuildsTheFrame :
    (({ State.reset with scnt := 21 } : State).err = 0 ∧ ({ State.reset with scnt := 21 } : State).scnt.val ≠ 22) ∧
    ((staged 0x8D4840D6202CC371C32CE0576098#176).scnt.val = 22 ∧ (frameByteAt exampleFrame 0).extractLsb' 3 5 = 17#5 ∧
      crc24 0xFFF409#24 (frameBytes exampleFrame) = 0) ∧
    (staged 0).scnt.val = 22 ∧ ¬ (frameByteAt 0 0).extractLsb' 3 5 = 17#5 := by decide +kernel

theorem witness_AccessorsAnswerHeaderFields : holdsFrame.err = 0 ∧ holdsFrame.frv = true ∧ State.reset.err = 0 ∧
    State.reset.frv = false ∧ isAccessor .frmDf ∧ isAccessor (.frmByte 65535) := ⟨rfl, rfl, rfl, rfl, trivial, trivial⟩

theorem witness_FrmByteReadsTheFrame : holdsFrame.err = 0 ∧ holdsFrame.frv = true ∧ (13 : Nat) ≤ 13 ∧ (13 : Nat) < 14 ∧
    State.reset.frv = false := ⟨rfl, rfl, by decide, by decide, rfl⟩

/-- A row with a valid checksum and the same row with another. -/
theorem witness_FrameRowsAreReceivedAndDispatched :
    (staged 0).err = 0 ∧ (staged 0).scnt.val = 22 ∧
    crc24 (staged 0).poly (frameBytes (rowFrame 4#5 5#3 0x4840D6#24 0x02CC371C32CE0#51 0x576098#24)) = 0 ∧
    crc24 (staged 0).poly (frameBytes (rowFrame 4#5 5#3 0x4840D6#24 0x02CC371C32CE0#51 0x576099#24)) ≠ 0 ∧
    kindTable[(4#5).toNat]? = some .ident := by decide +kernel

/-- A valid record and an invalid one. -/
theorem witness_RecordPseudoOperationLoadsFrame :
    let h : List Byte := List.replicate 8 0 ++ frameBytes exampleFrame
    State.reset.err = 0 ∧ State.reset.scnt = 0 ∧ h.length = 22 ∧
    validate State.reset.poly (frameOfBytes (h.drop 8)) = true ∧ (List.replicate 22 (0 : Byte)).length = 22 ∧
    validate State.reset.poly (frameOfBytes ((List.replicate 22 (0 : Byte)).drop 8)) = false := by decide +kernel

/-- Each bound of the domain, from inside and from outside. -/
theorem witness_ExtractUnsignedIsShiftAndMask :
    ((1 : Int) ≤ 31 ∧ (31 : Int) ≤ 31 ∧ (0 : Int) ≤ 33 ∧ (33 : Int) + 31 ≤ 64) ∧ (0 : Int) < 1 ∧ (31 : Int) < 32 ∧
    (-1 : Int) < 0 ∧ (64 : Int) < 34 + 31 := by decide

theorem witness_HeaderFieldsByPrimitives :
    ¬ ((0 : Int) ≤ 5 ∧ (5 : Int) ≤ 14 ∧ (14 : Int) ≤ (frameBytes exampleFrame).length ∧ (14 : Int) - 5 ≤ 8) ∧
    (13 : Nat) < 14 := by decide

theorem witness_HexFormRoundTrip : (hexValue 'f' = some 15#4 ∧ hexValue '0' = some 0#4 ∧ bytesOfHex [] = some []) ∧ bytesOfHex ['a', 'F'] = some [0xAF#8] ∧ ['a'].length % 2 = 1 ∧
    (∀ c ∈ ['0', '9', 'A', 'F', 'a', 'f'], (hexValue c).isSome = true) ∧ (∃ c ∈ ['0', 'G'], hexValue c = none) :=
  ⟨by decide, by decide, by decide, by intro c hc; fin_cases hc <;> rfl, 'G', by decide, by decide⟩

end Sys2Proof.Tests
end

section
/-! What a command that pulls samples keeps, said once for any predicate on states: WIN.ADV and WIN.ADVN only perform
`Advance`, answer or wait, and DEM.NEXT besides these only hands over or drops a frame (41_window.md R79, R80;
43_frame_sync.md R96 to R98). -/

namespace Sys2Proof.Machine

/-- A predicate that `Advance` and the end or the wait of a command leave true. -/
structure KeptByAdvances (P : State → Prop) : Prop where
  advance : ∀ s t, P s → advance s = .done t → P t
  answer : ∀ s r b, P s → P { s with portR := r, busy := b }

/-- A predicate that the writes of DEM.NEXT to FR and FRV leave true as well. -/
structure KeptByDemodulator (P : State → Prop) : Prop extends KeptByAdvances P where
  frame : ∀ s ts c v, P s → P { s with frTs := ts, frB := c, frv := v }

/-- A run of `Advance` operations has a next state only by completing or by waiting. -/
theorem Progress.resolve_next {p : Progress} {whenDone : State → Outcome} {whenWaiting : Nat → State → Outcome}
    {t : State} (h : p.resolve whenDone whenWaiting = .next t) :
    (∃ u, p = .done u ∧ whenDone u = .next t) ∨ (∃ left u, p = .wait left u ∧ whenWaiting left u = .next t) := by
  cases p with
  | done u => exact .inl ⟨u, rfl, h⟩
  | wait left u => exact .inr ⟨left, u, rfl, h⟩
  | fault f => cases h
  | refused r => cases h

section
variable {P : State → Prop} {s t : State}

theorem runAdv_keeps (hP : KeptByAdvances P) (hs : P s) (h : runAdv s = .next t) : P t := by
  obtain ⟨u, hu, ht⟩ | ⟨left, u, hu, ht⟩ := Progress.resolve_next h
  · cases ht
    exact hP.answer u _ _ (hP.advance s u hs hu)
  · obtain ⟨-, rfl, -, -⟩ := advance_wait hu
    cases ht
    exact hP.answer u _ _ hs

/-- The shape of WIN.ADVN and of the skip: `AdvanceBy`, answered when it completes and busy while it waits. -/
theorem advanceBy_answer_keeps (hP : KeptByAdvances P) {n : Nat} {result : Word64} {wait : Nat → Busy} (hs : P s)
    (h : (advanceBy n s).resolve (fun u => .next (u.respond .ok result))
      (fun left u => .next { u with busy := some (wait left) }) = .next t) : P t := by
  obtain ⟨whenDone, whenWaiting⟩ := advanceBy_keeps hP.advance n s hs
  obtain ⟨u, hu, ht⟩ | ⟨left, u, hu, ht⟩ := Progress.resolve_next h <;> cases ht
  · exact hP.answer u _ _ (whenDone u hu)
  · exact hP.answer u _ _ (whenWaiting left u hu).1

theorem runAdvN_keeps (hP : KeptByAdvances P) {n : Nat} (hs : P s) (h : runAdvN n s = .next t) : P t :=
  advanceBy_answer_keeps hP hs h

theorem demSkip_keeps (hP : KeptByAdvances P) {n : Nat} (hs : P s) (h : demSkip n s = .next t) : P t :=
  advanceBy_answer_keeps hP hs h

theorem demEmit_keeps (hP : KeptByDemodulator P) {c : Frame} (hs : P s) (h : demEmit c s = .next t) : P t := by
  unfold demEmit at h
  split at h
  · cases h
  · exact demSkip_keeps hP.toKeptByAdvances (hP.frame s _ c true hs) h

theorem demScan_keeps (hP : KeptByDemodulator P) {prev : Nat} (hs : P s) (h : demScan prev s = .next t) : P t := by
  obtain ⟨whenFound, whenExhausted, whenWaiting⟩ := scan_keeps hP.advance s.portS prev s hs
  unfold demScan at h
  cases hscan : scan s.portS prev s with
  | found c u =>
    rw [hscan] at h
    exact demEmit_keeps hP (whenFound c u hscan).1 h
  | exhausted u =>
    rw [hscan] at h
    cases h
    exact hP.answer _ _ _ (hP.frame u _ _ false (whenExhausted u hscan))
  | wait prev' u =>
    rw [hscan] at h
    cases h
    exact hP.answer u _ _ (whenWaiting prev' u hscan).1
  | fault f => rw [hscan] at h; cases h
  | refused r => rw [hscan] at h; cases h

theorem demFill_keeps (hP : KeptByDemodulator P) (hs : P s) (h : demFill s = .next t) : P t := by
  obtain ⟨whenDone, whenWaiting⟩ := fill_keeps hP.advance (s.capacity - s.len) s hs
  obtain ⟨u, hu, ht⟩ | ⟨left, u, hu, ht⟩ := Progress.resolve_next h
  · exact demScan_keeps hP (whenDone u hu) ht
  · cases ht
    exact hP.answer u _ _ (whenWaiting left u hu).1

end

end Sys2Proof.Machine
end

section
/-! Which commands write CRCR (10_state.md R10). -/

namespace Sys2Proof.Machine

/-- A faulted block refuses every row but SYS.STAT (R155). -/
theorem exec_faulted {i : Instr} {s : State} (he : s.err ≠ 0) (hi : i ≠ .sysStat) :
    exec i s = .next s.refuseFaulted := by
  cases i with
  | sysStat => exact absurd rfl hi
  | _ => exact State.command_faulted he _

/-- No operation of the window or of the demodulator touches CRCR. -/
theorem keptByDemodulator_crcr (c : Word24) : KeptByDemodulator fun s => s.crcr = c where
  advance s t hs h := by rw [advance_frame h]; exact hs
  answer _ _ _ hs := hs
  frame _ _ _ _ hs := hs

section
variable {s t : State}

theorem State.command_crcr {k : Outcome} (h : s.command k = .next t) (hk : k = .next t → t.crcr = s.crcr) :
    t.crcr = s.crcr := by
  obtain ⟨-, rfl⟩ | ⟨-, ht⟩ := State.command_next h
  · rfl
  · exact hk ht

theorem State.checkFrame_crcr {c : Frame} (h : s.checkFrame c = .next t) : t.crcr = s.crcr := by
  obtain ⟨-, rfl⟩ | ⟨he, -⟩ := State.command_next h
  · rfl
  · obtain ⟨-, rfl⟩ | ⟨-, -, rfl⟩ | ⟨-, -, rfl⟩ := State.checkFrame_next he h <;> rfl

theorem State.answerFromFrame_crcr {v : Word64} (h : s.answerFromFrame v = .next t) : t.crcr = s.crcr := by
  obtain ⟨-, rfl⟩ | ⟨he, -⟩ := State.command_next h
  · rfl
  · obtain ⟨-, rfl⟩ | ⟨-, rfl⟩ := State.answerFromFrame_next he h <;> rfl

theorem exec_crcr_of_faulted {i : Instr} (he : s.err ≠ 0) (h : exec i s = .next t) : t.crcr = s.crcr := by
  by_cases hi : i = .sysStat
  · subst hi
    cases h
    rfl
  · cases (exec_faulted he hi).symm.trans h
    rfl

/-- CRCR is untouched by every row but CRC.CLR and CRC.BYTE, also by DEM.NEXT and FRM.CHK, whose checksums are values of
`crc24` and no use of CRCR (R10). -/
theorem exec_crcr_of_not_write {i : Instr} (hclr : i ≠ .crcClr) (hbyte : ∀ x, i ≠ .crcByte x)
    (h : exec i s = .next t) : t.crcr = s.crcr := by
  have kept := keptByDemodulator_crcr s.crcr
  cases i with
  | crcClr => exact absurd rfl hclr
  | crcByte x => exact absurd rfl (hbyte x)
  | sysStat => cases h; rfl
  | crcRd | crcTab | winPos | winFull => exact State.command_crcr h fun ht => by cases ht; rfl
  | winAdv => exact State.command_crcr h (runAdv_keeps kept.toKeptByAdvances rfl)
  | winAdvn n => exact State.command_crcr h (runAdvN_keeps kept.toKeptByAdvances rfl)
  | demNext =>
    refine State.command_crcr h fun ht => ?_
    split at ht
    · cases ht
    · exact demFill_keeps kept rfl ht
  | winGet | frmPutb | frmByte => exact State.command_crcr h fun ht => by split at ht <;> cases ht <;> rfl
  | frmDf | frmIcao | frmMe | frmTc | frmKind | frmTs => exact State.answerFromFrame_crcr h
  | _ => exact State.checkFrame_crcr h

end

/-- Settles O26: CRC.CLR, CRC.BYTE and CRC.RD by their meanings in a block that is not faulted; the rest because a
faulted block refuses, and no other row touches CRCR. -/
theorem onlyCrcCommandsWriteCrcr : Obligations.OnlyCrcCommandsWriteCrcr := by
  refine ⟨rfl, fun i s t h => ⟨?clr, ?byte, ?rd, ?others⟩⟩
  case clr | rd =>
    rintro rfl he
    cases (State.command_healthy he _).symm.trans h
    rfl
  case byte =>
    rintro x rfl he
    cases (State.command_healthy he _).symm.trans h
    rfl
  case others =>
    rintro (he | ⟨hclr, hbyte⟩)
    · exact exec_crcr_of_faulted he h
    · exact exec_crcr_of_not_write hclr hbyte h

end Sys2Proof.Machine
end

section
/-! The fields of the 16-bit STATUS view, and SYS.STAT (10_state.md R21; 45_system.md R118). -/

namespace Sys2Proof.Machine

/-- Bit i of STATUS, as the layout of R21 has it: four flags, then ERR, then SCNT. -/
theorem State.statusView_getLsbD (s : State) {i : Nat} (hi : i < 16) :
    s.statusView.getLsbD i =
      (decide (i = 0) && s.full || decide (i = 1) && s.eos || decide (i = 2) && s.frv || decide (i = 3) && s.faulted
        || decide (4 ≤ i) && s.err.getLsbD (i - 4) || decide (8 ≤ i) && s.scnt.val.testBit (i - 8)) := by
  have flag (k : Nat) (b : Bool) :
      (!decide (i < k) && (decide (i - k = 0) && b)) = (decide (i = k) && b) := by
    rw [← Bool.and_assoc]
    congr 1
    grind
  have inside (k : Nat) : i - k < 16 := by omega
  have from4 : (!decide (i < 4)) = decide (4 ≤ i) := by grind
  have from8 : (!decide (i < 8)) = decide (8 ≤ i) := by grind
  simp only [State.statusView, BitVec.getLsbD_or, BitVec.getLsbD_shiftLeft, BitVec.getLsbD_ofNat,
    BitVec.getLsbD_setWidth, BitVec.getLsbD_ofBool, hi, inside, decide_true, Bool.true_and, flag, from4, from8]

/-- The four bits from 4 on are those of ERR. -/
theorem State.statusView_getLsbD_err (s : State) {i : Nat} (hi : i < 4) :
    s.statusView.getLsbD (4 + i) = s.err.getLsbD i := by
  rw [s.statusView_getLsbD (by omega)]
  simp [show 4 + i ≠ 1 by omega, show 4 + i ≠ 2 by omega, show 4 + i ≠ 3 by omega, show ¬ 8 ≤ 4 + i by omega]

/-- The bits from 8 on are those of SCNT, whose own bits from 5 on are 0. -/
theorem State.statusView_getLsbD_scnt (s : State) {i : Nat} (hi : i < 8) :
    s.statusView.getLsbD (8 + i) = s.scnt.val.testBit i := by
  rw [s.statusView_getLsbD (by omega), BitVec.getLsbD_of_ge s.err _ (by omega)]
  simp [show 8 + i ≠ 1 by omega, show 8 + i ≠ 2 by omega, show 8 + i ≠ 3 by omega]

/-- SCNT is at most 22, so it has five bits (R19). -/
theorem State.scnt_lt (s : State) : s.scnt.val < 2 ^ 5 := by omega

theorem State.statusView_extract_scnt (s : State) : s.statusView.extractLsb' 8 5 = BitVec.ofNat 5 s.scnt.val := by
  ext i hi
  rw [BitVec.getElem_extractLsb', s.statusView_getLsbD_scnt (by omega), ← BitVec.getLsbD_eq_getElem,
    BitVec.getLsbD_ofNat]
  simp [hi]

theorem State.statusView_extract_top (s : State) : s.statusView.extractLsb' 13 3 = 0 := by
  ext i hi
  have outside : s.scnt.val < 2 ^ (5 + i) :=
    s.scnt_lt.trans_le (Nat.pow_le_pow_right (by decide) (Nat.le_add_right 5 i))
  rw [BitVec.getElem_extractLsb', show 13 + i = 8 + (5 + i) by omega, s.statusView_getLsbD_scnt (by omega),
    Nat.testBit_lt_two_pow outside]
  simp

/-- Settles O24: the answer is the meaning of SYS.STAT itself, and each field is read off the bits of the view. -/
theorem sysStatAnswersStatus : Obligations.SysStatAnswersStatus := by
  intro s
  have bit {i : Nat} (hi : i < 16) := s.statusView_getLsbD hi
  refine ⟨rfl, ?full, ?eos, ?frv, ?fault, ?err, ?scnt, s.statusView_extract_top⟩
  case full => rw [bit (by decide)]; simp [State.full, Bool.beq_eq_decide_eq]
  case eos => rw [bit (by decide)]; simp
  case frv => rw [bit (by decide)]; simp
  case fault => rw [bit (by decide)]; simp [State.faulted, bne, Bool.beq_eq_decide_eq]
  case err =>
    ext i hi
    rw [BitVec.getElem_extractLsb', s.statusView_getLsbD_err hi, BitVec.getLsbD_eq_getElem]
  case scnt => rw [s.statusView_extract_scnt, BitVec.toNat_ofNat, Nat.mod_eq_of_lt s.scnt_lt]

end Sys2Proof.Machine
end

section
/-! The four CRC commands and their words (40_crc.md R68 to R71; the operand form imm8 is 30_encoding.md R46). -/

namespace Sys2Proof

/-- The form imm8 gives back the byte that was encoded. -/
@[simp] theorem formImm8_commandWord (op x : Byte) (f : Byte → Instr) :
    formImm8 (commandWord op (x.setWidth 16)) f = .ok (f x) := by
  simp [formImm8]

/-- RSV of an encoded word is 0, so its OP decides. -/
theorem decodeCommand_commandWord (op : Byte) (imm : BitVec 16) :
    decodeCommand (commandWord op imm) = decodeOpcode (commandWord op imm) := by
  simp [decodeCommand]

/-- A word written as R46 has it, OP in the top byte and the operand in the low one, is read by its OP. -/
theorem decodeCommand_byteWord (op x : Byte) :
    decodeCommand ((op.setWidth 32 <<< 24) ||| x.setWidth 32) = decodeOpcode (commandWord op (x.setWidth 16)) := by
  have word : (op.setWidth 32 <<< 24) ||| x.setWidth 32 = commandWord op (x.setWidth 16) := by simp [commandWord]
  rw [word, decodeCommand_commandWord]

theorem decodeCommand_crcByte (x : Byte) : decodeCommand (0x11000000#32 ||| x.setWidth 32) = .ok (.crcByte x) :=
  (decodeCommand_byteWord 0x11#8 x).trans (by simp [decodeOpcode])

theorem decodeCommand_crcTab (t : Byte) : decodeCommand (0x13000000#32 ||| t.setWidth 32) = .ok (.crcTab t) :=
  (decodeCommand_byteWord 0x13#8 t).trans (by simp [decodeOpcode])

namespace Machine

/-- Settles O25: a block that is not faulted runs the meaning of each command, whose next state is the one stated; an
imm8 word decodes to its byte, and the two words without an operand and the example of R69 are closed. -/
theorem crcCommandsComplete : Obligations.CrcCommandsComplete := by
  refine ⟨fun s he => ⟨?clr, ?byte, ?rd, ?tab⟩, ?clrWord, ?rdWord, fun x => ⟨decodeCommand_crcByte x,
    decodeCommand_crcTab x⟩, ?foldExample⟩
  case clr | rd => exact State.command_healthy he _
  case byte | tab => exact fun x => State.command_healthy he _
  case clrWord | rdWord => rfl
  case foldExample => decide

end Machine

end Sys2Proof
end

section
/-! WIN.ADV, WIN.POS and WIN.FULL (41_window.md R79, R82, R83): one `Advance`, and two reads that move nothing. -/

namespace Sys2Proof.Machine

/-- `retained` with FULL spelled out as LEN = W (R16, R74). -/
theorem State.retained_eq_ite (s : State) :
    s.retained = if s.len = s.capacity then s.wbuf.tail else s.wbuf :=
  if_congr State.full_iff rfl rfl

/-- WIN.ADV answers OK 0 once its `Advance` completes. -/
theorem runAdv_done {s t : State} (h : advance s = .done t) : runAdv s = .next (t.respond .ok 0) := by
  simp [runAdv, h, Progress.resolve]

/-- Settles O32: a block that is not faulted performs one `Advance`, which takes the sample or finds the end mark. -/
theorem winAdvMovesTheWindow : Obligations.WinAdvMovesTheWindow := by
  refine ⟨rfl, fun s he => ⟨fun v rest hs hv hp => ?sample, fun hs hend => ?ended⟩⟩
  all_goals rw [← s.retained_eq_ite]
  case sample => exact (State.command_healthy he _).trans (runAdv_done (advance_sample hs hv hp))
  case ended => exact (State.command_healthy he _).trans (runAdv_done (advance_end hs hend))

/-- Settles O36: both commands answer from the state in a block that is not faulted; after reset POS is 0 and the empty
window is shorter than W. -/
theorem winPosAndWinFullAnswer : Obligations.WinPosAndWinFullAnswer := by
  refine ⟨rfl, rfl, fun s he => ⟨State.command_healthy he _, ?full⟩, rfl, rfl⟩
  case full =>
    have answer : (if s.full then 1 else 0 : Word64) = if s.len = s.capacity then 1 else 0 :=
      if_congr State.full_iff rfl rfl
    rw [← answer]
    exact State.command_healthy he _

end Sys2Proof.Machine
end

section
/-! WIN.ADVN in closed form (41_window.md R75, R80): first the samples that are ready, then the end of the stream. -/

open Sys2Proof.Statements

namespace Sys2Proof

/-- The form imm16 gives back the operand that was encoded. -/
@[simp] theorem formImm16_commandWord (op : Byte) (imm : BitVec 16) (f : Nat → Instr) :
    formImm16 (commandWord op imm) f = .ok (f imm.toNat) := by
  simp [formImm16]

/-- A word written as a number, OP in the top byte and a 16-bit operand below, is the word of these fields (R46). -/
theorem word16_eq_commandWord {op n : Nat} (hop : op < 256) (hn : n < 65536) :
    word16 op n = commandWord (BitVec.ofNat 8 op) (BitVec.ofNat 16 n) := by
  apply BitVec.eq_of_toNat_eq
  have sum : op <<< 24 + n = op <<< 24 ||| n := Nat.shiftLeft_add_eq_or_of_lt (by omega) op
  have top : op <<< 24 < 2 ^ 32 := by rw [Nat.shiftLeft_eq]; omega
  have fits : op * 2 ^ 24 + n < 2 ^ 32 := by omega
  simp only [commandWord, BitVec.toNat_or, BitVec.toNat_shiftLeft, BitVec.toNat_setWidth, BitVec.toNat_ofNat]
  rw [Nat.mod_eq_of_lt fits, Nat.mod_eq_of_lt hop, Nat.mod_eq_of_lt hn, Nat.mod_eq_of_lt (hop.trans (by decide)),
    Nat.mod_eq_of_lt (hn.trans (by decide)), Nat.mod_eq_of_lt top, ← sum, Nat.shiftLeft_eq]

theorem decodeCommand_winAdvn {n : Nat} (hn : n < 65536) : decodeCommand (word16 0x21 n) = .ok (.winAdvn n) := by
  rw [word16_eq_commandWord (by decide) hn, decodeCommand_commandWord]
  simp [decodeOpcode, Nat.mod_eq_of_lt hn]

namespace Machine

/-! ### Samples that are ready -/

/-- The state after `n` of the samples ready on port S have gone into the window: W youngest stay (R74, R75). -/
def State.consume (s : State) (n : Nat) : State :=
  { s with
    wbuf := (s.wbuf ++ s.portS.take n).drop (s.len + n - s.capacity),
    pos := s.pos + BitVec.ofNat 64 n, portS := s.portS.drop n }

section
variable {s : State} {m n : Nat}

/-- A window within its capacity loses nothing when nothing comes. -/
theorem State.consume_zero (hl : s.len ≤ s.capacity) : s.consume 0 = s := by
  simp [State.consume, Nat.sub_eq_zero_of_le hl]

/-- The window grows up to W and no further. -/
theorem State.len_consume (hn : n ≤ s.portS.length) : (s.consume n).len = min s.capacity (s.len + n) := by
  simp only [State.consume, State.len, List.length_drop, List.length_append, List.length_take]
  omega

theorem State.consume_len_le (hn : n ≤ s.portS.length) : (s.consume n).len ≤ s.capacity :=
  (State.len_consume hn).trans_le (Nat.min_le_left _ _)

/-- POS does not wrap inside its domain (R8). -/
theorem State.toNat_pos_consume (hp : s.pos.toNat + n < Config.positionLimit) :
    (s.consume n).pos.toNat = s.pos.toNat + n := by
  unfold Config.positionLimit at hp
  simp only [State.consume, BitVec.toNat_add, BitVec.toNat_ofNat]
  omega

/-- Taking `m` samples and then `n` is taking `m + n`. -/
theorem State.consume_consume (hm : m ≤ s.portS.length) : (s.consume m).consume n = s.consume (m + n) := by
  have len := State.len_consume hm
  have dropped : s.len + m - s.capacity + (min s.capacity (s.len + m) + n - s.capacity)
      = s.len + (m + n) - s.capacity := by
    omega
  have inside : s.len + m - s.capacity ≤ (s.wbuf ++ s.portS.take m).length := by
    simp only [State.len, List.length_append, List.length_take]
    omega
  have window : ((s.consume m).wbuf ++ (s.consume m).portS.take n).drop ((s.consume m).len + n - s.capacity)
      = (s.wbuf ++ s.portS.take (m + n)).drop (s.len + (m + n) - s.capacity) := by
    rw [len, ← dropped, ← List.drop_drop, List.take_add, ← List.append_assoc,
      List.drop_append_of_le_length inside]
    rfl
  have pos : s.pos + BitVec.ofNat 64 m + BitVec.ofNat 64 n = s.pos + BitVec.ofNat 64 (m + n) := by
    rw [BitVec.add_assoc, BitVec.ofNat_add]
  show { s with
      wbuf := ((s.consume m).wbuf ++ (s.consume m).portS.take n).drop ((s.consume m).len + n - s.capacity),
      pos := s.pos + BitVec.ofNat 64 m + BitVec.ofNat 64 n, portS := (s.portS.drop m).drop n } = s.consume (m + n)
  rw [window, pos, List.drop_drop]
  rfl

/-- In a window within its capacity, `Advance` drops the oldest sample if the next one would exceed W (R74). -/
theorem State.retained_eq_drop (hl : s.len ≤ s.capacity) : s.retained = s.wbuf.drop (s.len + 1 - s.capacity) := by
  obtain full | growing := hl.eq_or_lt
  · simp [State.retained, State.full_iff.mpr full, full]
  · simp [State.retained_of_not_full growing, Nat.sub_eq_zero_of_le growing]

theorem advance_consume (hc : 0 < s.capacity) (hl : s.len ≤ s.capacity) (hn : 0 < s.portS.length)
    (hv : ∀ v ∈ s.portS.take 1, v < 2 ^ s.sampleWidth) (hp : s.pos.toNat + 1 < Config.positionLimit) :
    advance s = .done (s.consume 1) := by
  obtain ⟨v, rest, hs⟩ := List.exists_cons_of_length_pos hn
  have inside : s.len + 1 - s.capacity ≤ s.wbuf.length := by
    simp only [State.len]
    omega
  rw [advance_sample hs (hv v (by simp [hs])) hp, State.retained_eq_drop hl, ← List.drop_append_of_le_length inside]
  simp [State.consume, hs]

end

/-- `AdvanceBy(n)` with n samples ready, in a window of any length (R75). -/
theorem advanceBy_ready (n : Nat) :
    ∀ s : State, 0 < s.capacity → s.len ≤ s.capacity → n ≤ s.portS.length →
      (∀ v ∈ s.portS.take n, v < 2 ^ s.sampleWidth) → s.pos.toNat + n < Config.positionLimit →
      advanceBy n s = .done (s.consume n) := by
  induction n with
  | zero => intro s _ hl _ _ _; rw [State.consume_zero hl, advanceBy_zero]
  | succ n ih =>
    intro s hc hl hn hv hp
    have one : 1 ≤ s.portS.length := by omega
    have wide : ∀ v ∈ s.portS.take 1, v < 2 ^ s.sampleWidth := fun v hvm =>
      hv v (List.take_subset_take_left _ (by omega) hvm)
    have first : advance s = .done (s.consume 1) := advance_consume hc hl one wide (by omega)
    have pos := State.toNat_pos_consume (s := s) (n := 1) (by omega)
    rw [advanceBy_succ_done first, ih (s.consume 1) hc (State.consume_len_le one), State.consume_consume one,
      Nat.add_comm 1 n]
    · simp only [State.consume, List.length_drop]
      omega
    · intro v hvm
      refine hv v ?_
      rw [Nat.add_comm n 1, List.take_add]
      exact List.mem_append_right _ hvm
    · omega

/-- `AdvanceBy` in two parts, when the first completes. -/
theorem advanceBy_add_done {m n : Nat} :
    ∀ {s t : State}, advanceBy m s = .done t → advanceBy (m + n) s = advanceBy n t := by
  induction m with
  | zero => intro s t h; cases h; rw [Nat.zero_add]
  | succ m ih =>
    intro s t h
    rw [Nat.add_right_comm]
    cases ha : advance s with
    | done u =>
      rw [advanceBy_succ_done ha] at h ⊢
      exact ih h
    | wait | fault | refused => simp [advanceBy, ha] at h

/-! ### The end of the stream -/

/-- Past the end a window that is not full is left as it is (R74). -/
theorem advanceBy_past_end (n : Nat) {s : State} (hs : s.portS = []) (hend : s.srcEnded = true) (heos : s.eos = true)
    (hl : s.len < s.capacity) : advanceBy n s = .done s := by
  have still : advance s = .done s := by
    rw [advance_end hs hend, State.retained_of_not_full hl, ← heos]
  induction n with
  | zero => rfl
  | succ n ih => rw [advanceBy_succ_done still, ih]

/-- At the end of the stream the first `Advance` sets EOS and takes the oldest sample of a full window; the
remaining ones have no effect (R74, R75). -/
theorem advanceBy_ended {n : Nat} {s : State} (hn : 0 < n) (hs : s.portS = []) (hend : s.srcEnded = true)
    (hc : 0 < s.capacity) (hl : s.len ≤ s.capacity) :
    advanceBy n s = .done { s with wbuf := s.retained, eos := true } := by
  obtain ⟨k, rfl⟩ := Nat.exists_eq_add_one_of_ne_zero hn.ne'
  rw [advanceBy_succ_done (advance_end hs hend)]
  refine advanceBy_past_end k hs hend rfl ?_
  show s.retained.length < s.capacity
  rw [State.retained_eq_drop hl, List.length_drop]
  simp only [State.len] at hl ⊢
  omega

/-- WIN.ADVN answers OK 0 once its `AdvanceBy` completes. -/
theorem runAdvN_done {n : Nat} {s t : State} (h : advanceBy n s = .done t) :
    runAdvN n s = .next (t.respond .ok 0) := by
  simp [runAdvN, h, Progress.resolve]

/-- The window after every sample ready has come in and the end of the stream has been found. -/
theorem State.retained_consume_all (s : State) :
    (s.consume s.portS.length).retained = (s.wbuf ++ s.portS).drop
      (if s.len + s.portS.length < s.capacity then 0 else s.len + s.portS.length - s.capacity + 1) := by
  have len := State.len_consume (s := s) le_rfl
  have len_le : (s.consume s.portS.length).len ≤ (s.consume s.portS.length).capacity := State.consume_len_le le_rfl
  have dropped : s.len + s.portS.length - s.capacity + (min s.capacity (s.len + s.portS.length) + 1 - s.capacity)
      = if s.len + s.portS.length < s.capacity then 0 else s.len + s.portS.length - s.capacity + 1 := by
    split <;> omega
  rw [State.retained_eq_drop len_le, len, ← dropped, ← List.drop_drop]
  simp [State.consume]

/-- Settles O33: `AdvanceBy` first takes the samples that are ready; if that was not all, the rest of it
meets the end of the stream. -/
theorem winAdvnSlidesTheWindow : Obligations.WinAdvnSlidesTheWindow := by
  refine ⟨fun n => decodeCommand_winAdvn, fun s n he hc hl hv hp => ⟨fun hn => ?ready, fun hn hend => ?short⟩⟩
  case ready =>
    rw [Nat.min_eq_left hn] at hp
    exact (State.command_healthy he _).trans (runAdvN_done (advanceBy_ready n s hc hl hn hv hp))
  case short =>
    rw [Nat.min_eq_right hn.le] at hp
    rw [List.take_of_length_le hn.le] at hv
    have all : advanceBy s.portS.length s = .done (s.consume s.portS.length) :=
      advanceBy_ready _ s hc hl le_rfl (by simpa using hv) hp
    have empty : (s.consume s.portS.length).portS = [] := List.drop_length
    have rest : advanceBy (n - s.portS.length) (s.consume s.portS.length)
        = .done { s.consume s.portS.length with wbuf := (s.consume s.portS.length).retained, eos := true } :=
      advanceBy_ended (by omega) empty hend hc (State.consume_len_le le_rfl)
    have run : advanceBy n s
        = .done { s.consume s.portS.length with wbuf := (s.consume s.portS.length).retained, eos := true } := by
      rw [← rest, ← advanceBy_add_done all, Nat.add_sub_cancel' hn.le]
    refine (State.command_healthy he _).trans ((runAdvN_done run).trans ?_)
    rw [State.retained_consume_all]
    simp [State.consume, State.respond]

end Machine

end Sys2Proof
end

section
/-! The test at one position of the window with its offsets written out (42_preamble_detector.md R85 to R89;
43_frame_sync.md R90 to R95). -/

namespace Sys2Proof.Machine

/-! ### The sums and the bit rule -/

section
variable (s : State)

theorem State.peakSum_eq :
    s.peakSum = s.wbuf.getD 0 0 + s.wbuf.getD 10 0 + s.wbuf.getD 35 0 + s.wbuf.getD 45 0 := by
  simp [State.peakSum, State.sumAt, Config.peakOffsets, State.sampleAt, Nat.add_assoc]

theorem State.nextPeakSum_eq :
    s.nextPeakSum = s.wbuf.getD 1 0 + s.wbuf.getD 11 0 + s.wbuf.getD 36 0 + s.wbuf.getD 46 0 := by
  simp [State.nextPeakSum, State.sumAt, Config.nextOffsets, State.sampleAt, Nat.add_assoc]

theorem State.floorSum_eq :
    s.floorSum = 2 * (s.wbuf.getD 5 0 + s.wbuf.getD 15 0 + s.wbuf.getD 20 0 + s.wbuf.getD 30 0
      + s.wbuf.getD 40 0) := by
  simp [State.floorSum, State.sumAt, Config.floorOffsets, State.sampleAt, Nat.add_assoc]

/-- Bit n compares the two halves of its ten samples, from offset 80 on (R90). -/
theorem State.sliceBit_eq (n : Nat) :
    s.sliceBit n = decide (s.wbuf.getD (85 + 10 * n) 0 ≤ s.wbuf.getD (80 + 10 * n) 0) :=
  rfl

end

/-! ### The byte rule -/

/-- One bit put at a place of a byte, as `SliceByte` does. -/
theorem getLsbD_bitAt (b : Bool) {p j : Nat} (hj : j < 8) :
    ((BitVec.ofBool b).setWidth 8 <<< p).getLsbD j = (decide (j = p) && b) := by
  simp only [BitVec.getLsbD_shiftLeft, BitVec.getLsbD_setWidth, BitVec.getLsbD_ofBool, hj]
  grind

/-- The sum of bits put at places 7, 6, … of a byte has each bit at its place: a new bit meets a zero there, so nothing
is carried. -/
theorem getLsbD_sum_bits (b : Nat → Bool) {m : Nat} (hm : m ≤ 8) {j : Nat} (hj : j < 8) :
    (((List.range m).map fun i => (BitVec.ofBool (b i)).setWidth 8 <<< (7 - i)).sum : Byte).getLsbD j
      = (decide (7 - j < m) && b (7 - j)) := by
  induction m generalizing j with
  | zero => simp
  | succ m ih =>
    have ih {j : Nat} (hj : j < 8) := ih (by omega) hj
    have disjoint : (((List.range m).map fun i => (BitVec.ofBool (b i)).setWidth 8 <<< (7 - i)).sum : Byte)
        &&& (BitVec.ofBool (b m)).setWidth 8 <<< (7 - m) = 0#8 := by
      ext k hk
      rw [← BitVec.getLsbD_eq_getElem, BitVec.getLsbD_and, ih hk, getLsbD_bitAt _ hk]
      grind
    rw [List.range_succ, List.map_append, List.sum_append, List.map_singleton, List.sum_singleton,
      BitVec.add_eq_or_of_and_eq_zero _ _ disjoint, BitVec.getLsbD_or, ih hj, getLsbD_bitAt _ hj]
    grind

/-- Most significant bit first (R91). -/
theorem State.sliceByte_getLsbD (s : State) (k : Nat) {i : Nat} (hi : i < 8) :
    (s.sliceByte k).getLsbD (7 - i) = s.sliceBit (8 * k + i) := by
  rw [State.sliceByte, getLsbD_sum_bits (fun i => s.sliceBit (8 * k + i)) le_rfl (by omega)]
  simp [show 7 - (7 - i) = i by omega, hi]

/-! ### The verdict -/

/-- The two tests of the preamble as comparisons of sums (R87, R89). -/
theorem State.peakOk_iff {s : State} {prev : Nat} :
    s.peakOk prev = true ↔ prev < s.peakSum ∧ s.nextPeakSum < s.peakSum := by
  simp [State.peakOk]

theorem State.floorOk_iff {s : State} : s.floorOk = true ↔ s.floorSum ≤ s.peakSum := by
  simp [State.floorOk]

/-- `DemodStep` as comparisons of sums, in the document's order (R95). -/
theorem State.demodStep_eq (s : State) (prev : Nat) :
    s.demodStep prev =
      if ¬ (prev < s.peakSum ∧ s.nextPeakSum < s.peakSum) then .rejectPeak
      else if ¬ s.floorSum ≤ s.peakSum then .rejectFloor
      else if (s.sliceByte 0).extractLsb' 3 5 ≠ 17#5 then .rejectFormat
      else if crc24 s.poly (frameBytes s.candidate) ≠ 0 then .rejectCrc
      else .accept s.candidate := by
  have peak : (!s.peakOk prev) = true ↔ ¬ (prev < s.peakSum ∧ s.nextPeakSum < s.peakSum) := by
    rw [← State.peakOk_iff]; simp
  have floor : (!s.floorOk) = true ↔ ¬ s.floorSum ≤ s.peakSum := by
    rw [← State.floorOk_iff]; simp
  exact if_congr peak rfl (if_congr floor rfl rfl)

/-- Settles O39: the sums and the bit rule are the model's with its offsets put in, a byte holds its bits without a
carry, the candidate's bytes are the sliced ones, and the verdict is the chain of tests on these sums. -/
theorem demodStepTestsOnePosition : Obligations.DemodStepTestsOnePosition := by
  intro s prev
  refine ⟨s.peakSum_eq, s.sliceBit_eq, fun k _ => s.sliceByte_getLsbD k, fun _ => frameByteAt_candidate s, ?verdict⟩
  case verdict => rw [s.demodStep_eq, s.peakSum_eq, s.nextPeakSum_eq, s.floorSum_eq]

end Sys2Proof.Machine
end

section
/-! One position of the scan: a rejected position moves the window by one sample (43_frame_sync.md R97), an accepted
candidate is emitted and its 1200 samples are skipped (R96). -/

open Sys2Proof.Statements

namespace Sys2Proof.Machine

section
variable {s t : State} {prev : Nat} {c : Frame}

/-! ### A rejected position (R97) -/

theorem State.retained_of_full (hl : s.len = s.capacity) : s.retained = s.wbuf.tail :=
  s.retained_eq_ite.trans (if_pos hl)

/-- A rejected position hands its peak sum on as PREV, in the window its `Advance` leaves. -/
theorem scanTurn_reject {onward : Nat → State → Scan} (hl : s.len = s.capacity)
    (hreject : ∀ c, s.demodStep prev ≠ .accept c) (ha : advance s = .done t) :
    scanTurn prev s onward = onward s.peakSum t := by
  have full : s.full = true := State.full_iff.mpr hl
  cases hd : s.demodStep prev with
  | accept c => exact absurd hd (hreject c)
  | rejectPeak | rejectFloor | rejectFormat | rejectCrc => simp [scanTurn, full, hd, ha]

/-- After a rejected position whose `Advance` takes a sample, the scan goes on with this position's peak sum. -/
theorem demScan_reject_sample {v : Nat} (hl : s.len = s.capacity)
    (hreject : ∀ c, s.demodStep prev ≠ .accept c) (hs : s.portS = v :: t.portS) (ha : advance s = .done t) :
    demScan prev s = demScan s.peakSum t := by
  have turn : scan s.portS prev s = scan t.portS s.peakSum t := by
    rw [hs]
    exact scanTurn_reject hl hreject ha
  rw [demScan, turn, demScan]

/-- After a rejected position whose `Advance` finds the end mark, DEM.NEXT answers 0. -/
theorem demScan_reject_end (hl : s.len = s.capacity) (hreject : ∀ c, s.demodStep prev ≠ .accept c)
    (hs : s.portS = []) (ha : advance s = .done t) :
    demScan prev s = .next ({ t with frv := false }.respond .ok 0) := by
  have turn : scan s.portS prev s = .exhausted t := by
    rw [hs]
    exact scanTurn_reject hl hreject ha
  rw [demScan, turn]

/-- Settles O41: the `Advance` of a full window drops its oldest sample; it takes the sample that is ready, or finds the
end mark. -/
theorem rejectedPositionMovesByOne : Obligations.RejectedPositionMovesByOne := by
  intro s prev hl _ hreject
  refine ⟨fun v rest hs hv hp => ?sample, fun hs hend => ?ended⟩
  all_goals rw [← State.retained_of_full hl]
  case sample => exact demScan_reject_sample hl hreject hs (advance_sample hs hv hp)
  case ended => exact demScan_reject_end hl hreject hs (advance_end hs hend)

/-! ### An accepted position (R96) -/

/-- An accepted candidate ends the scan at its position, whatever port S holds. -/
theorem demScan_accept (hl : s.len = s.capacity) (hd : s.demodStep prev = .accept c) :
    demScan prev s = demEmit c s := by
  have full : s.full = true := State.full_iff.mpr hl
  have turn (onward : Nat → State → Scan) : scanTurn prev s onward = .found c s := by
    simp [scanTurn, full, hd]
  have found : scan s.portS prev s = .found c s := by
    cases s.portS with
    | nil => exact turn _
    | cons v rest => exact turn _
  rw [demScan, found]

/-- FR after the emission of a candidate: stamped with the position it was accepted at, and valid (R96). -/
def State.emit (s : State) (c : Frame) : State :=
  { s with frTs := s.pos * Config.nsPerSample, frB := c, frv := true }

/-- Inside the domain of POS the emission is `State.emit`, and the answer 1 follows once the skip completes. -/
theorem demEmit_done (hp : s.pos.toNat < Config.positionLimit)
    (h : advanceBy Config.messageSamples (s.emit c) = .done t) : demEmit c s = .next (t.respond .ok 1) := by
  have skip : demSkip Config.messageSamples (s.emit c) = .next (t.respond .ok 1) := by
    simp [demSkip, h, Progress.resolve]
  exact (if_neg hp.not_ge).trans skip

/-- A full window that meets the end of the stream inside `AdvanceBy(n)`: the samples that were left go in, and the end
mark drops one sample more; the remaining operations have no effect (R74, R75). -/
theorem advanceBy_full_short {n : Nat} (hc : 0 < s.capacity) (hl : s.len = s.capacity) (hn : s.portS.length < n)
    (hend : s.srcEnded = true) (hv : ∀ v ∈ s.portS, v < 2 ^ s.sampleWidth)
    (hp : s.pos.toNat + s.portS.length < Config.positionLimit) :
    advanceBy n s = .done { s with
      wbuf := (s.wbuf ++ s.portS).drop (s.portS.length + 1), pos := s.pos + BitVec.ofNat 64 s.portS.length,
      portS := [], eos := true } := by
  have all : advanceBy s.portS.length s = .done (s.consume s.portS.length) :=
    advanceBy_ready _ s hc hl.le le_rfl (by simpa using hv) hp
  have empty : (s.consume s.portS.length).portS = [] := List.drop_length
  rw [← Nat.add_sub_cancel' hn.le, advanceBy_add_done all,
    advanceBy_ended (by omega) empty hend hc (State.consume_len_le le_rfl), State.retained_consume_all]
  simp [State.consume, hl]

end

/-- DEM.NEXT on a full window scans at once, with PREV = 0 (R98). -/
theorem exec_demNext_of_full {s : State} (he : s.err = 0) (hw : 1196 ≤ s.capacity) (hl : s.len = s.capacity) :
    exec .demNext s = demScan 0 s := by
  have enough : ¬ s.capacity < Config.minCapacity := hw.not_gt
  have nothing_missing : demFill s = demScan 0 s := by
    simp [demFill, hl, fill, Progress.resolve]
  exact (State.command_healthy he _).trans ((if_neg enough).trans nothing_missing)

/-- Settles O40: an accepted candidate ends the scan and is put into FR; then the 1200 samples go through the full
window, or the end of the stream is met inside the skip, which no longer touches FR. -/
theorem demNextEmitsAcceptedFrame : Obligations.DemNextEmitsAcceptedFrame := by
  refine ⟨fun s => exec_demNext_of_full, fun s prev c hc hl hd hv hp => ?_⟩
  have domain : s.pos.toNat < Config.positionLimit := (Nat.le_add_right _ _).trans_lt hp
  rw [demScan_accept hl hd]
  refine ⟨fun hn => ?whole, fun hn hend => ?short⟩
  case whole =>
    rw [Nat.min_eq_left hn] at hp
    exact demEmit_done domain (advanceBy_full 1200 (s.emit c) hl hc hn hv hp)
  case short =>
    rw [Nat.min_eq_right hn.le] at hp
    rw [List.take_of_length_le hn.le] at hv
    exact demEmit_done domain (advanceBy_full_short (s := s.emit c) hc hl hn hend hv hp)

end Sys2Proof.Machine
end

section
/-! The frame parser (44_frame_parser.md R100 to R117): staging a record byte by byte, consuming a full one, and reading
the frame in FR. -/

open Sys2Proof.Statements

namespace Sys2Proof

theorem decodeCommand_frmPutb (x : Byte) : decodeCommand (0x40000000#32 ||| x.setWidth 32) = .ok (.frmPutb x) :=
  (decodeCommand_byteWord 0x40#8 x).trans (by simp [decodeOpcode])

theorem decodeCommand_frmByte {k : Nat} (hk : k < 65536) : decodeCommand (word16 0x48 k) = .ok (.frmByte k) := by
  rw [word16_eq_commandWord (by decide) hk, decodeCommand_commandWord]
  simp [decodeOpcode, Nat.mod_eq_of_lt hk]

namespace Machine

/-- A command that raises a cause in a block that is not faulted (R151). -/
theorem State.command_raise {s : State} {e : Cause} {k : Outcome} (he : s.err = 0) (hk : k = .next (s.raise e)) :
    s.command k = .next (faultedWith s e) := by
  rw [State.command_healthy he, hk, State.raise_healthy he]

/-! ### Staging a record (R109) -/

/-- Settles O47: below 22 the one staged byte that changes is the one at SCNT; at 22 there is no place left. -/
theorem frmPutbStagesOneByte : Obligations.FrmPutbStagesOneByte := by
  refine fun s x he => ⟨fun hn => ?staged, fun hfull => ?overflow, decodeCommand_frmPutb x⟩
  case staged =>
    exact ⟨_, (State.command_healthy he _).trans (dif_pos hn), rfl, stagedByte_setStagedByte_same _ hn x,
      fun k hk hne => stagedByte_setStagedByte_other _ hn hk hne x, rfl⟩
  case overflow => exact State.command_raise he (dif_neg hfull.not_lt)

/-! ### Consuming a record (R101, R110) -/

/-- A field inside a field, when it does not reach beyond it. -/
theorem extractLsb'_extractLsb'_of_add_le {w a m b n : Nat} (x : BitVec w) (h : b + n ≤ m) :
    (x.extractLsb' a m).extractLsb' b n = x.extractLsb' (a + b) n := by
  ext i hi
  simp [show b + i < m by omega, Nat.add_assoc]

/-- The timestamp of a record is its first eight bytes. -/
theorem recordTimestamp_byte (r : Record) {k : Nat} (hk : k < 8) :
    (recordTimestamp r).extractLsb' (56 - 8 * k) 8 = stagedByte r k := by
  rw [recordTimestamp, extractLsb'_extractLsb'_of_add_le r (by omega), stagedByte,
    show 112 + (56 - 8 * k) = 168 - 8 * k by omega]

/-- The frame of a record is its last fourteen bytes. -/
theorem frameByteAt_recordFrame (r : Record) {k : Nat} (hk : k < 14) :
    frameByteAt (recordFrame r) k = stagedByte r (8 + k) := by
  rw [frameByteAt, recordFrame, BitVec.extractLsb'_extractLsb'_of_le (by omega), stagedByte,
    show 104 - 8 * k = 168 - 8 * (8 + k) by omega]

/-- A frame is valid if its first byte says downlink format 17 and its residue is 0 (R101). -/
theorem validate_iff {poly : Word24} {c : Frame} :
    validate poly c = true ↔ (frameByteAt c 0).extractLsb' 3 5 = 17#5 ∧ crc24 poly (frameBytes c) = 0 := by
  rw [validate, ← downlinkFormat_eq, Bool.and_eq_true, decide_eq_true_iff, decide_eq_true_iff]
  rfl

section
variable {s : State} {c : Frame}

theorem State.checkFrame_not_full (he : s.err = 0) (hn : s.scnt.val ≠ 22) :
    s.checkFrame c = .next (faultedWith s .stage) :=
  State.command_raise he (if_pos hn)

theorem State.checkFrame_full (he : s.err = 0) (hn : s.scnt.val = 22) :
    s.checkFrame c = .next (s.receiveFrame (recordTimestamp s.stg) c) :=
  (State.command_healthy he _).trans (if_neg (not_not.mpr hn))

theorem State.receiveFrame_valid {ts : Word64} (hv : validate s.poly c = true) :
    s.receiveFrame ts c = answered { s with scnt := 0, frTs := ts, frB := c, frv := true } 1 :=
  if_pos hv

theorem State.receiveFrame_invalid {ts : Word64} (hv : ¬ validate s.poly c = true) :
    s.receiveFrame ts c = answered { s with scnt := 0, frv := false } 0 :=
  if_neg hv

end

/-- Settles O48: the timestamp and the frame are those of the staged record, and FRM.CHK keeps the frame exactly if
`Validate` accepts it. -/
theorem frmChkBuildsTheFrame : Obligations.FrmChkBuildsTheFrame := by
  refine fun s he => ⟨fun hn => State.checkFrame_not_full he hn, fun hn => ?_, rfl⟩
  refine ⟨recordTimestamp s.stg, recordFrame s.stg, fun k => recordTimestamp_byte s.stg,
    fun k => frameByteAt_recordFrame s.stg, fun hv => ?valid, fun hv => ?invalid⟩
  all_goals refine (State.checkFrame_full he hn).trans (congrArg _ ?_)
  case valid => exact State.receiveFrame_valid (validate_iff.mpr hv)
  case invalid => exact State.receiveFrame_invalid (validate_iff.not.mpr hv)

/-! ### The header fields as bytes (R104, R105) -/

/-- One more byte of a frame below a field that ends at a byte boundary. -/
theorem extractLsb'_append_frameByteAt (f : Frame) (n : Nat) {k : Nat} (hk : k < 13) :
    f.extractLsb' (104 - 8 * k) n ++ frameByteAt f (k + 1) = f.extractLsb' (104 - 8 * (k + 1)) (n + 8) :=
  BitVec.extractLsb'_append_extractLsb'_eq_extractLsb' (by omega)

/-- `IcaoAddress()` is bytes 1 to 3 (R104). -/
theorem icaoAddress_eq_bytes (f : Frame) :
    icaoAddress f = frameByteAt f 1 ++ frameByteAt f 2 ++ frameByteAt f 3 := by
  rw [show frameByteAt f 1 = f.extractLsb' (104 - 8 * 1) 8 from rfl,
    extractLsb'_append_frameByteAt f 8 (by decide), extractLsb'_append_frameByteAt f 16 (by decide)]
  rfl

/-- `Payload()` is bytes 4 to 10 (R105). -/
theorem payload_eq_bytes (f : Frame) :
    payload f = frameByteAt f 4 ++ frameByteAt f 5 ++ frameByteAt f 6 ++ frameByteAt f 7 ++ frameByteAt f 8
      ++ frameByteAt f 9 ++ frameByteAt f 10 := by
  have next (n : Nat) {k : Nat} (hk : k < 13) := extractLsb'_append_frameByteAt f n hk
  rw [show frameByteAt f 4 = f.extractLsb' (104 - 8 * 4) 8 from rfl, next 8 (by decide), next 16 (by decide),
    next 24 (by decide), next 32 (by decide), next 40 (by decide), next 48 (by decide)]
  rfl

/-! ### The accessors (R111 to R117, R158) -/

section
variable {s : State} {k : Nat}

theorem State.answerFromFrame_valid (he : s.err = 0) (hf : s.frv = true) (v : Word64) :
    s.answerFromFrame v = .next (answered s v) :=
  (State.command_healthy he _).trans (if_neg (by simp [hf]))

theorem State.answerFromFrame_noFrame (he : s.err = 0) (hf : s.frv = false) (v : Word64) :
    s.answerFromFrame v = .next (faultedWith s .noFrame) :=
  State.command_raise he (if_pos hf)

theorem State.frameByte_ok (hf : s.frv = true) (hk : k ≤ 13) : s.frameByte k = .ok (frameByteAt s.frB k) := by
  rw [State.frameByte, if_neg (by simp [hf]), if_neg hk.not_gt]

theorem State.frameByte_range (hf : s.frv = true) (hk : 13 < k) : s.frameByte k = .error .range := by
  rw [State.frameByte, if_neg (by simp [hf]), if_pos hk]

/-- E_NOFRAME comes first, whatever k is (R157). -/
theorem State.frameByte_noFrame (hf : s.frv = false) (k : Nat) : s.frameByte k = .error .noFrame :=
  if_pos hf

theorem exec_frmByte_ok {v : Byte} (he : s.err = 0) (h : s.frameByte k = .ok v) :
    exec (.frmByte k) s = .next (answered s (zext64 v)) :=
  (State.command_healthy he _).trans (by rw [h]; rfl)

theorem exec_frmByte_error {e : Cause} (he : s.err = 0) (h : s.frameByte k = .error e) :
    exec (.frmByte k) s = .next (faultedWith s e) :=
  State.command_raise he (by rw [h])

/-- Without a frame every accessor raises E_NOFRAME (R158). -/
theorem exec_accessor_noFrame {i : Instr} (he : s.err = 0) (hf : s.frv = false) (hi : isAccessor i) :
    exec i s = .next (faultedWith s .noFrame) := by
  cases i with
  | frmDf | frmIcao | frmMe | frmTc | frmKind | frmTs => exact State.answerFromFrame_noFrame he hf _
  | frmByte k => exact exec_frmByte_error he (State.frameByte_noFrame hf k)
  | _ => exact hi.elim

end

/-- Settles O49: each accessor answers its field of the frame, and the fields are the stated bytes put together. -/
theorem accessorsAnswerHeaderFields : Obligations.AccessorsAnswerHeaderFields := by
  refine ⟨rfl, rfl, rfl, rfl, rfl, rfl, fun s he => ⟨fun hf => ?_, fun hf i => exec_accessor_noFrame he hf⟩⟩
  have answer := State.answerFromFrame_valid he hf
  intro b me
  have icao : b 1 ++ b 2 ++ b 3 = icaoAddress s.frB := (icaoAddress_eq_bytes s.frB).symm
  have payload : me = payload s.frB := (payload_eq_bytes s.frB).symm
  rw [icao, payload]
  refine ⟨answer _, fun hv => ?_, answer _, answer _, answer _, answer _, answer _⟩
  have format : downlinkFormat s.frB = 17#5 := (validate_iff.mp hv).1
  refine (answer _).trans ?_
  rw [format]
  rfl

/-- Settles O50: `FrameByte` tests FRV first and then the bound. -/
theorem frmByteReadsTheFrame : Obligations.FrmByteReadsTheFrame :=
  ⟨fun _ => decodeCommand_frmByte, fun _ k he =>
    ⟨fun hf hk => exec_frmByte_ok he (State.frameByte_ok hf hk),
      fun hf hk => exec_frmByte_error he (State.frameByte_range hf hk),
      fun hf => exec_frmByte_error he (State.frameByte_noFrame hf k)⟩⟩

/-! ### The dispatch (R56, R108) -/

/-- `Kind` is the table of R56, entry by entry. -/
theorem kindOf_eq_kindTable : ∀ tc : BitVec 5, some (kindOf tc) = kindTable[tc.toNat]? := by decide

/-- Settles O51: the table entry of each type code, and the four codes by definition. -/
theorem dispatchTable : Obligations.DispatchTable :=
  fun tc => ⟨kindOf_eq_kindTable tc, rfl, rfl, rfl, rfl⟩

end Machine

end Sys2Proof
end

section
/-! The bit and byte primitives (47_bit_byte_primitives.md R142, R147; 44_frame_parser.md R107): the field of a word, and
the hexadecimal form of a byte sequence. -/

namespace Sys2Proof.Machine

/-! ### `extractUnsigned` (R142) -/

/-- Shift and mask is the quotient and the remainder by powers of two; a mask of 64 ones and less fits the word. -/
theorem toNat_ushiftRight_and_mask (word : Word64) (start : Nat) {size : Nat} (h : size ≤ 64) :
    ((word >>> start) &&& BitVec.ofNat 64 (2 ^ size - 1)).toNat = word.toNat / 2 ^ start % 2 ^ size := by
  have fits : 2 ^ size - 1 < 2 ^ 64 :=
    (Nat.sub_one_lt (Nat.two_pow_pos size).ne').trans_le (Nat.pow_le_pow_right (by decide) h)
  rw [BitVec.toNat_and, BitVec.toNat_ushiftRight, BitVec.toNat_ofNat, Nat.mod_eq_of_lt fits,
    Nat.and_two_pow_sub_one_eq_mod, Nat.shiftRight_eq_div_pow]

/-- Settles O54: the definition tests its domain; inside it the field is below 2 ^ size, and size is at most 31. -/
theorem extractUnsignedIsShiftAndMask : Obligations.ExtractUnsignedIsShiftAndMask := by
  refine fun word start size => ⟨fun h1 h31 h0 h64 => ?inside, fun h => if_neg (by omega)⟩
  case inside =>
    have field := toNat_ushiftRight_and_mask word start.toNat (size := size.toNat) (by omega)
    refine ⟨_, if_pos ⟨h1, h31, h0, h64⟩, field, ?_⟩
    calc _ = word.toNat / 2 ^ start.toNat % 2 ^ size.toNat := field
      _ < 2 ^ size.toNat := Nat.mod_lt _ (Nat.two_pow_pos _)
      _ ≤ 2 ^ 31 := Nat.pow_le_pow_right (by decide) (by omega)

/-! ### Hexadecimal digits (R147) -/

section
variable {c d : Char}

theorem hexValue_isSome_iff :
    (hexValue c).isSome = true ↔ ('0' ≤ c ∧ c ≤ '9') ∨ ('A' ≤ c ∧ c ≤ 'F') ∨ ('a' ≤ c ∧ c ≤ 'f') := by
  unfold hexValue
  split_ifs <;> simp [*]

theorem hexValue_hexDigit : ∀ n : BitVec 4, hexValue (hexDigit n) = some n := by decide

theorem hexDigit_ofNat {n : Nat} (h : n < 10) : hexDigit (BitVec.ofNat 4 n) = Char.ofNat (48 + n) := by
  have value : (BitVec.ofNat 4 n).toNat = n := Nat.mod_eq_of_lt (by omega)
  rw [hexDigit, value, if_pos h]
  rfl

theorem hexDigit_ofNat_add_ten {n : Nat} (h : n < 6) : hexDigit (BitVec.ofNat 4 (n + 10)) = Char.ofNat (65 + n) := by
  have value : (BitVec.ofNat 4 (n + 10)).toNat = n + 10 := Nat.mod_eq_of_lt (by omega)
  rw [hexDigit, value, if_neg (by omega), Nat.add_sub_cancel]
  rfl

/-- The lower-case letters are the code points 97 to 122. -/
theorem char_isLower_iff : c.isLower = true ↔ 97 ≤ c.toNat ∧ c.toNat ≤ 122 := by
  rw [Char.isLower, Bool.and_eq_true, decide_eq_true_iff, decide_eq_true_iff]
  rfl

/-- Below the lower-case letters upper case changes nothing. -/
theorem toUpper_eq_self_of_lt (h : c.toNat < 97) : c.toUpper = c :=
  Char.toUpper_eq_of_not_isLower fun hlower => h.not_ge (char_isLower_iff.mp hlower).1

/-- A digit that is read is written back as its upper case: 0 to 9 and A to F stand for themselves, and a to f stand 32
places above A to F. -/
theorem hexDigit_of_hexValue {v : BitVec 4} (h : hexValue c = some v) : hexDigit v = c.toUpper := by
  unfold hexValue at h
  split_ifs at h with hdecimal hupper hlower <;> cases h
  · obtain ⟨lo, hi⟩ : 48 ≤ c.toNat ∧ c.toNat ≤ 57 := hdecimal
    change hexDigit (BitVec.ofNat 4 (c.toNat - 48)) = c.toUpper
    rw [hexDigit_ofNat (by omega), Nat.add_sub_of_le lo, Char.ofNat_toNat, toUpper_eq_self_of_lt (by omega)]
  · obtain ⟨lo, hi⟩ : 65 ≤ c.toNat ∧ c.toNat ≤ 70 := hupper
    change hexDigit (BitVec.ofNat 4 (c.toNat - 65 + 10)) = c.toUpper
    rw [hexDigit_ofNat_add_ten (by omega), Nat.add_sub_of_le lo, Char.ofNat_toNat, toUpper_eq_self_of_lt (by omega)]
  · obtain ⟨lo, hi⟩ : 97 ≤ c.toNat ∧ c.toNat ≤ 102 := hlower
    change hexDigit (BitVec.ofNat 4 (c.toNat - 97 + 10)) = c.toUpper
    have place : 65 + (c.toNat - 97) = c.toNat - 32 := by omega
    rw [hexDigit_ofNat_add_ten (by omega), place,
      Char.toUpper_eq_of_isLower (char_isLower_iff.mpr ⟨lo, by omega⟩)]

/-! ### A pair of digits -/

/-- A nibble shifted above another is the byte of the two. -/
theorem shiftLeft_or_eq_append (high low : BitVec 4) :
    (high.setWidth 8 <<< 4) ||| low.setWidth 8 = high ++ low := by
  refine BitVec.eq_of_getLsbD_eq fun i hi => ?_
  rw [BitVec.getLsbD_append, BitVec.getLsbD_or, BitVec.getLsbD_shiftLeft]
  by_cases h4 : i < 4
  · simp [h4, hi]
  · simp [h4, hi, show i - 4 < 8 by omega, BitVec.getLsbD_of_ge low i (by omega)]

/-- The first nibble is worth 16 times its value. -/
theorem nibbles_append_eq_ofNat (high low : BitVec 4) :
    high ++ low = BitVec.ofNat 8 (16 * high.toNat + low.toNat) := by
  apply BitVec.eq_of_toNat_eq
  rw [BitVec.toNat_append, ← Nat.shiftLeft_add_eq_or_of_lt low.isLt, Nat.shiftLeft_eq, BitVec.toNat_ofNat]
  omega

/-- The nibbles of a byte put together again. -/
theorem byte_eq_nibbles_append (b : Byte) : b.extractLsb' 4 4 ++ b.extractLsb' 0 4 = b :=
  (BitVec.extractLsb'_append_extractLsb'_eq_extractLsb' rfl).trans BitVec.extractLsb'_eq_self

variable {rest : List Char} {bytes : List Byte}

/-- A string of two characters and more is read exactly if both are digits and the rest is read. -/
theorem bytesOfHex_cons_cons_iff :
    bytesOfHex (c :: d :: rest) = some bytes ↔
      ∃ (high low : BitVec 4) (tail : List Byte), hexValue c = some high ∧ hexValue d = some low ∧
        bytesOfHex rest = some tail ∧ bytes = (high ++ low) :: tail := by
  rw [bytesOfHex]
  split
  next high low tail hc hd hrest =>
    rw [shiftLeft_or_eq_append]
    simp [hc, hd, hrest, eq_comm]
  next unread =>
    refine iff_of_false nofun ?_
    rintro ⟨high, low, tail, hc, hd, hrest, -⟩
    exact unread high low tail hc hd hrest

theorem bytesOfHex_cons_cons {high low : BitVec 4} (hc : hexValue c = some high) (hd : hexValue d = some low)
    (hrest : bytesOfHex rest = some bytes) : bytesOfHex (c :: d :: rest) = some ((high ++ low) :: bytes) :=
  bytesOfHex_cons_cons_iff.mpr ⟨high, low, bytes, hc, hd, hrest, rfl⟩

/-- The string form of a byte made of two nibbles. -/
theorem hexOfBytes_append_cons (high low : BitVec 4) :
    hexOfBytes ((high ++ low) :: bytes) = hexDigit high :: hexDigit low :: hexOfBytes bytes := by
  have low_eq : (high ++ low).extractLsb' 0 4 = low := by
    rw [BitVec.extractLsb'_append_eq_of_add_le (by decide), BitVec.extractLsb'_eq_self]
  rw [hexOfBytes, BitVec.extractLsb'_append_eq_left, low_eq]

end

/-! ### Byte sequences -/

/-- The string form reads back. -/
theorem bytesOfHex_hexOfBytes (bytes : List Byte) : bytesOfHex (hexOfBytes bytes) = some bytes := by
  induction bytes with
  | nil => rfl
  | cons b rest ih =>
    rw [hexOfBytes, bytesOfHex_cons_cons (hexValue_hexDigit _) (hexValue_hexDigit _) ih, byte_eq_nibbles_append]

/-- A string that is read renders as itself in upper case. -/
theorem hexOfBytes_of_bytesOfHex {h : List Char} {bytes : List Byte} (hread : bytesOfHex h = some bytes) :
    hexOfBytes bytes = h.map Char.toUpper := by
  induction h using List.twoStepInduction generalizing bytes with
  | nil => cases hread; rfl
  | singleton c => cases hread
  | cons_cons c d rest ih _ =>
    obtain ⟨high, low, tail, hc, hd, hrest, rfl⟩ := bytesOfHex_cons_cons_iff.mp hread
    rw [hexOfBytes_append_cons, hexDigit_of_hexValue hc, hexDigit_of_hexValue hd, ih hrest]
    rfl

/-- The strings that are read are those of an even number of digits. -/
theorem bytesOfHex_isSome_iff (h : List Char) :
    (bytesOfHex h).isSome = true ↔ h.length % 2 = 0 ∧ ∀ c ∈ h, (hexValue c).isSome = true := by
  induction h using List.twoStepInduction with
  | nil => simp [bytesOfHex]
  | singleton c => simp [bytesOfHex]
  | cons_cons c d rest ih _ =>
    have read : (bytesOfHex (c :: d :: rest)).isSome = true ↔
        (hexValue c).isSome = true ∧ (hexValue d).isSome = true ∧ (bytesOfHex rest).isSome = true := by
      simp only [Option.isSome_iff_exists, bytesOfHex_cons_cons_iff]
      grind
    have parity : (c :: d :: rest).length % 2 = rest.length % 2 := Nat.add_mod_right _ 2
    rw [read, ih, parity]
    simp only [List.forall_mem_cons]
    tauto

/-- A string that is not an even number of digits is not read. -/
theorem bytesOfHex_eq_none_iff (h : List Char) :
    bytesOfHex h = none ↔ h.length % 2 = 1 ∨ ∃ c ∈ h, hexValue c = none := by
  rw [← Option.not_isSome_iff_eq_none, bytesOfHex_isSome_iff, not_and_or]
  simp only [Nat.mod_two_not_eq_zero, not_forall, Option.not_isSome_iff_eq_none, exists_prop]

/-- HexUpper6 renders the three bytes of the address, most significant first (R107). -/
theorem hexUpper6_eq_hexOfBytes (a : Word24) : hexUpper6 a = hexOfBytes (bytesOfWord24 a) := by
  have nibble (m b : Nat) (h : b + 4 ≤ 8) := extractLsb'_extractLsb'_of_add_le (a := m) a h
  simp only [bytesOfWord24, hexOfBytes]
  simp only [nibble _ 4 (by decide), nibble _ 0 (by decide)]
  rfl

/-- Settles O56: the digits by evaluation, a pair of digits by `bytesOfHex_cons_cons`, the two ways round by induction
on the bytes and on the pairs of characters, and what is read by `bytesOfHex_isSome_iff`. -/
theorem hexFormRoundTrip : Obligations.HexFormRoundTrip := by
  refine ⟨by decide, by decide, rfl, ?pair, bytesOfHex_hexOfBytes, fun _ _ => hexOfBytes_of_bytesOfHex,
    fun _ => hexValue_isSome_iff, ?read, fun h hodd => (bytesOfHex_eq_none_iff h).mpr (.inl hodd),
    fun h hbad => (bytesOfHex_eq_none_iff h).mpr (.inr hbad), hexUpper6_eq_hexOfBytes⟩
  case pair =>
    intro c d rest high low bytes hc hd hrest
    rw [bytesOfHex_cons_cons hc hd hrest, nibbles_append_eq_ofNat]
  case read =>
    intro h heven hdigits
    exact Option.isSome_iff_exists.mp ((bytesOfHex_isSome_iff h).mpr ⟨heven, hdigits⟩)

end Sys2Proof.Machine
end

section
/-! The decoder by operand form, and the words it rejects (30_encoding.md R44 to R48). -/

open Sys2Proof.Statements Sys2Proof.Laws.TableRow

namespace Sys2Proof

section
variable {w : CommandWord}

/-! ### The opcode map by operand form (R45, R46) -/

theorem decodeOpcode_of_mem_noneOpcodes (h : opField w ∈ noneOpcodes) :
    ∃ i, decodeOpcode w = formNone w i ∧ key i = .op (opField w) := by
  unfold decodeOpcode
  generalize opField w = op at h ⊢
  fin_cases h <;> exact ⟨_, rfl, rfl⟩

theorem decodeOpcode_of_mem_imm8Opcodes (h : opField w ∈ imm8Opcodes) :
    ∃ f, decodeOpcode w = formImm8 w f ∧ ∀ x, key (f x) = .op (opField w) := by
  unfold decodeOpcode
  generalize opField w = op at h ⊢
  fin_cases h <;> exact ⟨_, rfl, fun _ => rfl⟩

theorem decodeOpcode_of_mem_imm16Opcodes (h : opField w ∈ imm16Opcodes) :
    ∃ f, decodeOpcode w = formImm16 w f ∧ ∀ n, key (f n) = .op (opField w) := by
  unfold decodeOpcode
  generalize opField w = op at h ⊢
  fin_cases h <;> exact ⟨_, rfl, fun _ => rfl⟩

/-- Of the arms of the opcode map only the last one is left. -/
theorem decodeOpcode_of_not_mem (h : opField w ∉ noneOpcodes ++ imm8Opcodes ++ imm16Opcodes) :
    decodeOpcode w = .error (.opcode (opField w)) := by
  simp only [noneOpcodes, imm8Opcodes, imm16Opcodes, List.cons_append, List.nil_append, List.mem_cons, not_or,
    BitVec.toNat_eq] at h
  unfold decodeOpcode
  split <;> simp_all

/-! ### Rejected words (R48) -/

theorem formNone_error_iff {i : Instr} : (∃ e, formNone w i = .error e) ↔ immField w ≠ 0 := by
  unfold formNone
  split <;> simp_all

theorem formImm8_error_iff {f : Byte → Instr} : (∃ e, formImm8 w f = .error e) ↔ w.extractLsb' 8 8 ≠ 0 := by
  unfold formImm8
  split <;> simp_all

theorem decodeCommand_of_rsv_zero (h : rsvField w = 0) : decodeCommand w = decodeOpcode w := if_pos h

theorem decodeCommand_of_rsv_ne_zero (h : rsvField w ≠ 0) : decodeCommand w = .error .reserved := if_neg h

/-- No opcode of the form none has the form imm8 as well. -/
theorem not_mem_imm8Opcodes : ∀ op ∈ noneOpcodes, op ∉ imm8Opcodes := by decide

/-- The decoder rejects exactly the illegal words: RSV first, then the opcode, then the bits the form wants 0. -/
theorem decodeCommand_error_iff : (∃ e, decodeCommand w = .error e) ↔ illegalWord w := by
  unfold illegalWord
  by_cases hr : rsvField w = 0
  swap
  · exact ⟨fun _ => .inr (.inl hr), fun _ => ⟨_, decodeCommand_of_rsv_ne_zero hr⟩⟩
  rw [decodeCommand_of_rsv_zero hr]
  by_cases hn : opField w ∈ noneOpcodes
  · obtain ⟨i, hi, -⟩ := decodeOpcode_of_mem_noneOpcodes hn
    rw [hi, formNone_error_iff]
    simp [hr, hn, not_mem_imm8Opcodes _ hn]
  by_cases h8 : opField w ∈ imm8Opcodes
  · obtain ⟨f, hf, -⟩ := decodeOpcode_of_mem_imm8Opcodes h8
    rw [hf, formImm8_error_iff]
    simp [hr, hn, h8]
  by_cases h16 : opField w ∈ imm16Opcodes
  · obtain ⟨f, hf, -⟩ := decodeOpcode_of_mem_imm16Opcodes h16
    simp [hf, formImm16, hr, hn, h8, h16]
  · rw [decodeOpcode_of_not_mem (by simp [hn, h8, h16])]
    simp [hn, h8, h16]

/-! ### Decoded words (R44) -/

/-- A word that decodes has RSV = 0, and its OP is that of the row it decodes to. -/
theorem decodeCommand_ok {i : Instr} (h : decodeCommand w = .ok i) :
    rsvField w = 0 ∧ key i = .op (opField w) ∧ (opField w ∈ noneOpcodes → immField w = 0) := by
  have hr : rsvField w = 0 := by
    by_contra hr
    cases (decodeCommand_of_rsv_ne_zero hr).symm.trans h
  rw [decodeCommand_of_rsv_zero hr] at h
  refine ⟨hr, ?_⟩
  by_cases hn : opField w ∈ noneOpcodes
  · obtain ⟨j, hj, hkey⟩ := decodeOpcode_of_mem_noneOpcodes hn
    obtain ⟨rfl, himm⟩ := formNone_ok (hj.symm.trans h)
    exact ⟨hkey, fun _ => himm⟩
  refine ⟨?_, fun h => absurd h hn⟩
  by_cases h8 : opField w ∈ imm8Opcodes
  · obtain ⟨f, hf, hkey⟩ := decodeOpcode_of_mem_imm8Opcodes h8
    obtain ⟨rfl, -⟩ := formImm8_ok (hf.symm.trans h)
    exact hkey _
  by_cases h16 : opField w ∈ imm16Opcodes
  · obtain ⟨f, hf, hkey⟩ := decodeOpcode_of_mem_imm16Opcodes h16
    rw [formImm16_ok (hf.symm.trans h)]
    exact hkey _
  · cases (decodeOpcode_of_not_mem (by simp [hn, h8, h16])).symm.trans h

/-- The one word of SYS.STAT: OP 0x01 and zeros (R45, R155). -/
theorem decodeCommand_eq_sysStat_iff : decodeCommand w = .ok .sysStat ↔ w = 0x01000000#32 := by
  refine ⟨fun h => ?_, fun h => h ▸ rfl⟩
  obtain ⟨hr, hkey, himm⟩ := decodeCommand_ok h
  obtain hop : 0x01#8 = opField w := Key.op.inj hkey
  rw [← commandWord_fields w hr, himm (hop ▸ by decide), ← hop]
  rfl

/-- A frame decodes to the frame row of its type code, and to no command. -/
theorem isFrameRow_of_decodeFrame {f : Frame} {i : Instr} (h : decodeFrame f = .ok i) : isFrameRow i := by
  unfold decodeFrame at h
  split at h
  · cases h
    exact ⟨_, encode_frameRow _ _ _ _ _⟩
  · cases h

end

namespace Machine

/-! ### The row a word runs (R44, R56) -/

section
variable {s : State} {w : CommandWord}

theorem State.fetch_error {e : Illegal} (h : decodeCommand w = .error e) : s.fetch w = .error e := by
  simp [State.fetch, h]

/-- A word runs the row it decodes to, or it is FRM.CHK and runs a frame row. -/
theorem State.fetch_of_decode {i : Instr} (h : decodeCommand w = .ok i) :
    s.fetch w = .ok i ∨ (i = .frmChk ∧ ∃ j, isFrameRow j ∧ s.fetch w = .ok j) := by
  unfold State.fetch
  rw [h]
  by_cases hchk : i = .frmChk
  · subst hchk
    by_cases hfull : s.scnt.val = Config.recordBytes
    · cases hj : decodeFrame (recordFrame s.stg) with
      | ok j => exact .inr ⟨rfl, j, isFrameRow_of_decodeFrame hj, by simp [hfull]⟩
      | error e => exact .inl (by simp [hfull])
    · exact .inl (by simp [hfull])
  · exact .inl (by simp [hchk])

end

/-- A ready block accepts the word at the head of port C and runs it (R156). -/
theorem step_of_ready {s : State} {w : CommandWord} {rest : List CommandWord} (hs : s.Ready)
    (hw : s.portC = w :: rest) : step s = runWord w (s.accept rest) := by
  obtain ⟨hrst, hbusy⟩ := hs
  simp [step, hrst, hbusy, hw]

theorem runWord_error {s : State} {w : CommandWord} {e : Illegal} (h : s.fetch w = .error e) :
    runWord w s = s.illegalWord := by
  simp [runWord, h]

theorem runWord_ok {s : State} {w : CommandWord} {i : Instr} (h : s.fetch w = .ok i) : runWord w s = exec i s := by
  simp [runWord, h]

/-- An illegal word in a block that is not faulted raises E_ILLEGAL and does nothing else (R153). -/
theorem State.illegalWord_healthy {s : State} (he : s.err = 0) : s.illegalWord = .next (faultedWith s .illegal) :=
  State.command_raise he rfl

/-- Settles O3: the decoder rejects exactly the illegal words, and what a rejected word does in a ready block is the
fault E_ILLEGAL. -/
theorem illegalWordsRaiseIllegal : Obligations.IllegalWordsRaiseIllegal := by
  refine ⟨fun w => decodeCommand_error_iff, ?zero, ?ones, fun s w rest hs he hw hill => ?fault⟩
  case zero | ones => exact decodeCommand_error_iff.mp ⟨_, rfl⟩
  case fault =>
    obtain ⟨e, hdecode⟩ := decodeCommand_error_iff.mpr hill
    rw [step_of_ready hs hw, runWord_error (State.fetch_error hdecode)]
    exact State.illegalWord_healthy (s := s.accept rest) he

end Machine

end Sys2Proof
end

section
/-! The faulted block (60_exceptions.md R155): what it answers to a word, and that only reset clears ERR. -/

open Sys2Proof.Statements

namespace Sys2Proof.Machine

section
variable {s t : State}

theorem State.illegalWord_faulted (he : s.err ≠ 0) : s.illegalWord = .next s.refuseFaulted :=
  State.command_faulted he _

/-- A faulted block refuses every word but that of SYS.STAT, the illegal ones included. -/
theorem runWord_faulted {w : CommandWord} (he : s.err ≠ 0) (hw : w ≠ 0x01000000#32) :
    runWord w s = .next s.refuseFaulted := by
  cases hdecode : decodeCommand w with
  | error e => rw [runWord_error (State.fetch_error hdecode), State.illegalWord_faulted he]
  | ok i =>
    obtain hi | ⟨-, j, ⟨f, hf⟩, hj⟩ := State.fetch_of_decode (s := s) hdecode
    · rw [runWord_ok hi, exec_faulted he]
      rintro rfl
      exact hw (decodeCommand_eq_sysStat_iff.mp hdecode)
    · rw [runWord_ok hj, exec_faulted he]
      rintro rfl
      cases hf

/-- The word of SYS.STAT answers STATUS, faulted or not. -/
theorem runWord_sysStat : runWord 0x01000000#32 s = .next (s.respond .ok (zext64 s.statusView)) :=
  runWord_ok (i := .sysStat) rfl

theorem demMove_keeps {P : State → Prop} (hP : KeptByDemodulator P) {prev : Nat} (hs : P s)
    (h : demMove prev s = .next t) : P t := by
  obtain ⟨u, hu, ht⟩ | ⟨left, u, hu, ht⟩ := Progress.resolve_next h
  · exact demScan_keeps hP (hP.advance s u hs hu) ht
  · obtain ⟨-, rfl, -, -⟩ := advance_wait hu
    cases ht
    exact hP.answer u _ _ hs

/-- Going on with a waiting command keeps what the commands that pull samples keep (R165). -/
theorem resume_keeps {P : State → Prop} (hP : KeptByDemodulator P) {b : Busy} (hs : P s)
    (h : resume b s = .next t) : P t := by
  cases b with
  | adv => exact runAdv_keeps hP.toKeptByAdvances hs h
  | advN left => exact runAdvN_keeps hP.toKeptByAdvances hs h
  | demFill => exact demFill_keeps hP hs h
  | demStep prev => exact demMove_keeps hP hs h
  | demSkip left => exact demSkip_keeps hP.toKeptByAdvances hs h

/-- No operation of the window or of the demodulator touches ERR. -/
theorem keptByDemodulator_err (e : BitVec 4) : KeptByDemodulator fun s => s.err = e where
  advance s t hs h := by rw [advance_frame h]; exact hs
  answer _ _ _ hs := hs
  frame _ _ _ _ hs := hs

theorem runWord_err_of_faulted {w : CommandWord} (he : s.err ≠ 0) (h : runWord w s = .next t) : t.err = s.err := by
  by_cases hw : w = 0x01000000#32
  · subst hw
    cases h
    rfl
  · cases (runWord_faulted he hw).symm.trans h
    rfl

/-- In a faulted block every step without reset leaves ERR as it is. -/
theorem step_err_of_faulted (hrst : s.rst = false) (he : s.err ≠ 0) (h : step s = .next t) : t.err = s.err := by
  cases hbusy : s.busy with
  | some b =>
    simp only [step, hrst, hbusy] at h
    exact resume_keeps (keptByDemodulator_err s.err) rfl h
  | none =>
    cases hport : s.portC with
    | nil =>
      simp only [step, hrst, hbusy, hport] at h
      cases h
      rfl
    | cons w rest =>
      rw [step_of_ready ⟨hrst, hbusy⟩ hport] at h
      exact runWord_err_of_faulted (s := s.accept rest) he h

/-- The answer to the word a block without a waiting command has accepted. -/
theorem State.accept_respond (hbusy : s.busy = none) (rest : List CommandWord) (st : Status) (r : Word64) :
    (s.accept rest).respond st r = { s with portC := rest, portR := some ⟨st, r⟩ } := by
  simp [State.respond, State.accept, hbusy]

theorem step_in_reset (hrst : s.rst = true) : step s = .next s.inReset := if_pos hrst

end

/-- Settles O7: the accepted word is that of SYS.STAT or it is refused; ERR stays, by the cases of a step. -/
theorem faultedBlockRefusesAllButStatus : Obligations.FaultedBlockRefusesAllButStatus := by
  refine ⟨fun s w rest hs he hw => ?answer, fun s t => step_err_of_faulted, fun s t hrst h => ?reset⟩
  case answer =>
    rw [step_of_ready hs hw]
    obtain ⟨-, hbusy⟩ := hs
    by_cases hstat : w = 0x01000000#32
    · rw [if_pos hstat, hstat, runWord_sysStat, State.accept_respond hbusy]
      rfl
    · rw [if_neg hstat, runWord_faulted (s := s.accept rest) he hstat, State.refuseFaulted,
        State.accept_respond hbusy]
  case reset =>
    cases (step_in_reset hrst).symm.trans h
    rfl

end Sys2Proof.Machine
end

section
/-! Which row raises which cause, and that a fault changes nothing but ERR (60_exceptions.md R151 to R159). -/

open Sys2Proof.Statements

namespace Sys2Proof.Machine

/-! ### The causes -/

/-- The rows that raise a cause in a block that is not faulted, and when (R154, R158, R159). FRM.BYTE raises E_RANGE
only with a frame there (R157), and a frame row is FRM.CHK of a record with the row's frame. -/
inductive State.Raises (s : State) : Instr → Cause → Prop where
  | winGet {k : Nat} (hk : s.len ≤ k) : s.Raises (.winGet k) .range
  | frmByte {k : Nat} (hk : 13 < k) (hf : s.frv = true) : s.Raises (.frmByte k) .range
  | accessor {i : Instr} (hi : isAccessor i) (hf : s.frv = false) : s.Raises i .noFrame
  | frmPutb {x : Byte} (hfull : s.scnt.val = 22) : s.Raises (.frmPutb x) .stage
  | frmChk (hn : s.scnt.val ≠ 22) : s.Raises .frmChk .stage
  | frameRow {i : Instr} (hi : isFrameRow i) (hn : s.scnt.val ≠ 22) : s.Raises i .stage

/-- The codes of R152 are different. -/
theorem Cause.code_injective : Function.Injective Cause.code := by
  intro a b h
  cases a <;> cases b
  case illegal.illegal | range.range | noFrame.noFrame | stage.stage => rfl
  all_goals exact absurd h (by decide)

section
variable {s t : State} {i : Instr}

/-- A frame row consumes the staged record with the row's frame in it. -/
theorem exec_of_encode_frame {f : Frame} (hi : encode i = .frame f) : exec i s = s.checkFrame f := by
  cases i <;> cases hi <;> rfl

/-- A row that raises a cause leaves the state before plus ERR and the answer (R151). -/
theorem exec_of_raises {e : Cause} (he : s.err = 0) (hr : s.Raises i e) : exec i s = .next (faultedWith s e) := by
  cases hr with
  | winGet hk => exact State.command_raise he (by rw [State.winRead_error hk])
  | frmByte hk hf => exact exec_frmByte_error he (State.frameByte_range hf hk)
  | accessor hi hf => exact exec_accessor_noFrame he hf hi
  | frmPutb hfull => exact State.command_raise he (dif_neg hfull.not_lt)
  | frmChk hn => exact State.checkFrame_not_full he hn
  | frameRow hi hn =>
    obtain ⟨f, hf⟩ := hi
    rw [exec_of_encode_frame hf, State.checkFrame_not_full he hn]

/-- A record that is full is consumed without a fault. -/
theorem State.checkFrame_err_of_full {c : Frame} (he : s.err = 0) (hfull : s.scnt.val = 22)
    (h : s.checkFrame c = .next t) : t.err = 0 := by
  obtain ⟨hn, -⟩ | ⟨-, -, rfl⟩ | ⟨-, -, rfl⟩ := State.checkFrame_next he h
  · exact absurd hfull hn
  · exact he
  · exact he

/-- A row that raises no cause leaves ERR at 0. -/
theorem exec_err_of_not_raises (he : s.err = 0) (hr : ∀ e, ¬ s.Raises i e) (h : exec i s = .next t) : t.err = 0 := by
  have kept := keptByDemodulator_err 0
  have hframe (hi : isAccessor i) : s.frv = true := by simpa using fun hf => hr _ (.accessor hi hf)
  cases i with
  | sysStat => cases h; exact he
  | crcClr | crcByte | crcRd | crcTab | winPos | winFull =>
    cases (State.command_healthy he _).symm.trans h
    exact he
  | winAdv => exact runAdv_keeps kept.toKeptByAdvances he ((State.command_healthy he _).symm.trans h)
  | winAdvn n => exact runAdvN_keeps kept.toKeptByAdvances he ((State.command_healthy he _).symm.trans h)
  | demNext =>
    have h := (State.command_healthy he _).symm.trans h
    split at h
    · cases h
    · exact demFill_keeps kept he h
  | winGet k =>
    have hk : k < s.wbuf.length := not_le.mp fun hk => hr _ (.winGet hk)
    have h := (State.command_healthy he _).symm.trans h
    rw [State.winRead_ok hk] at h
    cases h
    exact he
  | frmPutb x =>
    have hn : s.scnt.val ≠ 22 := fun hfull => hr _ (.frmPutb hfull)
    cases ((State.command_healthy he _).trans (dif_pos (by omega))).symm.trans h
    exact he
  | frmChk => exact State.checkFrame_err_of_full he (not_not.mp fun hn => hr _ (.frmChk hn)) h
  | frmDf | frmIcao | frmMe | frmTc | frmKind | frmTs =>
    cases (State.answerFromFrame_valid he (hframe trivial) _).symm.trans h
    exact he
  | frmByte k =>
    have hk : k ≤ 13 := not_lt.mp fun hk => hr _ (.frmByte hk (hframe trivial))
    cases (exec_frmByte_ok he (State.frameByte_ok (hframe trivial) hk)).symm.trans h
    exact he
  | _ => exact State.checkFrame_err_of_full he (not_not.mp fun hn => hr _ (.frameRow ⟨_, rfl⟩ hn)) h

/-- A row that leaves ERR other than 0 has raised a cause, and did nothing else. -/
theorem exec_fault_precise (he : s.err = 0) (h : exec i s = .next t) (ht : t.err ≠ 0) :
    ∃ e, s.Raises i e ∧ t = faultedWith s e := by
  obtain ⟨e, hr⟩ : ∃ e, s.Raises i e := by
    by_contra hnone
    exact ht (exec_err_of_not_raises he (not_exists.mp hnone) h)
  cases (exec_of_raises he hr).symm.trans h
  exact ⟨e, hr, rfl⟩

/-- ERR becomes the code of a cause exactly when the row raises that cause. -/
theorem exec_err_eq_code_iff (he : s.err = 0) (h : exec i s = .next t) (e : Cause) :
    t.err = e.code ↔ s.Raises i e := by
  constructor
  · intro hcode
    obtain ⟨raised, hr, rfl⟩ := exec_fault_precise he h (hcode ▸ e.code_ne_zero)
    exact Cause.code_injective hcode ▸ hr
  · intro hr
    cases (exec_of_raises he hr).symm.trans h
    rfl

end

/-- Settles O22: `raise` is its own equation, a fault is the one the row raises, and an illegal word raises
E_ILLEGAL. -/
theorem faultsArePrecise : Obligations.FaultsArePrecise := by
  refine ⟨fun s e => ⟨rfl, ?code⟩, fun i s t he h ht => ?precise, fun s => State.illegalWord_healthy⟩
  case code => cases e <;> rfl
  case precise =>
    obtain ⟨e, -, hte⟩ := exec_fault_precise he h ht
    exact ⟨e, hte⟩

/-! ### The rows of each cause -/

section
variable {s : State} {i : Instr}

theorem State.not_raises_illegal : ¬ s.Raises i .illegal := nofun

theorem State.raises_range_iff : s.Raises i .range ↔
    (∃ k, i = .winGet k ∧ s.len ≤ k) ∨ (∃ k, i = .frmByte k ∧ 13 < k ∧ s.frv = true) := by
  constructor
  · rintro (hk | ⟨hk, hf⟩)
    · exact .inl ⟨_, rfl, hk⟩
    · exact .inr ⟨_, rfl, hk, hf⟩
  · rintro (⟨k, rfl, hk⟩ | ⟨k, rfl, hk, hf⟩)
    · exact .winGet hk
    · exact .frmByte hk hf

theorem State.raises_noFrame_iff : s.Raises i .noFrame ↔ isAccessor i ∧ s.frv = false :=
  ⟨fun | .accessor hi hf => ⟨hi, hf⟩, fun ⟨hi, hf⟩ => .accessor hi hf⟩

/-- Among the commands, which no frame row is. -/
theorem State.raises_stage_iff (hi : isCommand i) : s.Raises i .stage ↔
    (i = .frmChk ∧ s.scnt.val ≠ 22) ∨ (∃ x, i = .frmPutb x ∧ s.scnt.val = 22) := by
  constructor
  · intro hr
    cases hr with
    | frmPutb hfull => exact .inr ⟨_, rfl, hfull⟩
    | frmChk hn => exact .inl ⟨rfl, hn⟩
    | frameRow hrow hn =>
      obtain ⟨w, hw⟩ := hi
      obtain ⟨f, hf⟩ := hrow
      cases hw.symm.trans hf
  · rintro (⟨rfl, hn⟩ | ⟨x, rfl, hfull⟩)
    · exact .frmChk hn
    · exact .frmPutb hfull

end

/-- Settles O23: ERR becomes the code of the cause the command raises, and the rows of each cause are read off. -/
theorem faultsAreRaisedExactlyHere : Obligations.FaultsAreRaisedExactlyHere := by
  intro i s t hi he h
  have raised := exec_err_eq_code_iff he h
  exact ⟨fun ht => State.not_raises_illegal ((raised .illegal).mp ht), (raised .range).trans State.raises_range_iff,
    (raised .noFrame).trans State.raises_noFrame_iff, (raised .stage).trans (State.raises_stage_iff hi)⟩

end Sys2Proof.Machine
end

section
/-! The state after reset and what a host observes of it; what reset leaves on the ports (70_reset_and_hazards.md R167,
R168). -/

namespace Sys2Proof.Machine

section
variable (s : State)

/-- After reset the window is empty. -/
@[simp] theorem State.inReset_len : s.inReset.len = 0 := rfl

/-- Dropping the oldest sample of the empty window leaves it empty, so this holds for every W. -/
@[simp] theorem State.inReset_retained : s.inReset.retained = [] := ite_self []

variable {s}

/-- The empty window is shorter than any W above 0. -/
theorem State.inReset_full (hc : 0 < s.capacity) : s.inReset.full = false :=
  beq_false_of_ne hc.ne

/-- After reset no flag is set, and ERR and SCNT are 0. -/
theorem State.inReset_statusView (hc : 0 < s.capacity) : s.inReset.statusView = 0 := by
  simp [State.statusView, State.inReset_full hc, State.faulted]

/-- After the end of the stream `Advance` finds the end mark in the empty window and sets EOS alone. -/
theorem advance_inReset_end (hs : s.portS = []) (hend : s.srcEnded = true) :
    advance s.inReset = .done { s.inReset with eos := true } := by
  have mark : advance s.inReset = .done { s.inReset with wbuf := s.inReset.retained, eos := true } :=
    advance_end hs hend
  rw [mark, State.inReset_retained]
  rfl

end

/-- Settles O8: the step is the reset, whose registers have the values of the table; the block is then not faulted, so
each command answers by its own rule from those values. -/
theorem resetStateIsObservable : Obligations.ResetStateIsObservable := by
  refine ⟨rfl, rfl, fun s hrst => ?_⟩
  have healthy : s.inReset.err = 0 := rfl
  obtain ⟨crcAnswers, -⟩ := crcCommandsComplete
  obtain ⟨-, -, crcRd, crcTab⟩ := crcAnswers s.inReset healthy
  obtain ⟨-, -, windowAnswers, -⟩ := winPosAndWinFullAnswer
  obtain ⟨winPos, winFull⟩ := windowAnswers s.inReset healthy
  obtain ⟨sysStat, -⟩ := sysStatAnswersStatus s.inReset
  refine ⟨s.inReset, step_in_reset hrst, rfl, rfl, rfl, rfl, rfl, rfl, rfl, rfl, rfl, rfl, crcTab, crcRd,
    fun hc => ⟨?winFull, ?sysStat⟩, ?winGet, winPos, ?accessors⟩
  case winFull => rwa [State.inReset_len, State.inReset_capacity, if_neg hc.ne] at winFull
  case sysStat => rwa [State.inReset_statusView hc] at sysStat
  case winGet => exact fun k => exec_of_raises healthy (.winGet k.zero_le)
  case accessors => exact fun i => exec_accessor_noFrame healthy rfl

/-- Settles O9: the reset keeps the ports and drops the waiting command; WIN.ADV then finds the end mark again. -/
theorem resetKeepsTheStream : Obligations.ResetKeepsTheStream := by
  intro s hrst
  have healthy : s.inReset.err = 0 := rfl
  refine ⟨s.inReset, step_in_reset hrst, rfl, rfl, rfl, rfl, rfl, fun _ => rfl, fun hend hs => ⟨healthy, ?winAdv⟩⟩
  case winAdv => exact (State.command_healthy healthy _).trans (runAdv_done (advance_inReset_end hs hend))

end Sys2Proof.Machine
end

section
/-! Encoding and decoding undo each other (30_encoding.md R44 to R49), and the step that runs a decoded word (R44, R56;
60_exceptions.md R156). -/

open Sys2Proof.Statements

namespace Sys2Proof

/-! ### Decoding what was encoded -/

theorem decodeFrame_rowFrame (tc : BitVec 5) (c : BitVec 3) (a : BitVec 24) (m : BitVec 51) (p : BitVec 24) :
    decodeFrame (rowFrame tc c a m p) = .ok (frameRow tc c a m p) := by
  simp [decodeFrame, rowFrame]

/-- Settles O1: OP of the encoded word picks the row and its operand form gives the operand back; a frame is read by its
type code. -/
theorem decodeOfEncode : Obligations.DecodeOfEncode := by
  intro i hi
  cases i with
  | crcByte x | crcTab x | frmPutb x => exact (decodeCommand_commandWord _ _).trans (by simp [decodeOpcode])
  | winAdvn n | winGet n | frmByte n =>
    have fits : n < 65536 := of_decide_eq_true hi
    exact (decodeCommand_commandWord _ _).trans (by simp [decodeOpcode, Nat.mod_eq_of_lt fits])
  | sysStat | crcClr | crcRd | winAdv | winPos | winFull | demNext | frmChk | frmDf | frmIcao | frmMe | frmTc | frmKind
  | frmTs => rfl
  | _ c a m p => exact decodeFrame_rowFrame _ c a m p

/-! ### Encoding what was decoded -/

section
variable {w : CommandWord}

/-- The row of an opcode of form none is encoded as the opcode with IMM 0 (R46). -/
theorem encode_of_mem_noneOpcodes (h : opField w ∈ noneOpcodes) :
    ∃ i, decodeOpcode w = formNone w i ∧ encode i = .command (commandWord (opField w) 0) ∧ i.WellFormed := by
  unfold decodeOpcode
  generalize opField w = op at h ⊢
  fin_cases h <;> exact ⟨_, rfl, rfl, rfl⟩

/-- The row of an opcode of form imm8 is encoded as the opcode with its byte below (R46). -/
theorem encode_of_mem_imm8Opcodes (h : opField w ∈ imm8Opcodes) :
    ∃ f, decodeOpcode w = formImm8 w f ∧
      ∀ x, encode (f x) = .command (commandWord (opField w) (x.setWidth 16)) ∧ (f x).WellFormed := by
  unfold decodeOpcode
  generalize opField w = op at h ⊢
  fin_cases h <;> exact ⟨_, rfl, fun _ => ⟨rfl, rfl⟩⟩

/-- The row of an opcode of form imm16 is encoded as the opcode with its number below, and is well-formed up to 65535
(R46). -/
theorem encode_of_mem_imm16Opcodes (h : opField w ∈ imm16Opcodes) :
    ∃ f, decodeOpcode w = formImm16 w f ∧
      ∀ n, encode (f n) = .command (commandWord (opField w) (BitVec.ofNat 16 n)) ∧
        (n < 65536 → (f n).WellFormed) := by
  unfold decodeOpcode
  generalize opField w = op at h ⊢
  fin_cases h <;> exact ⟨_, rfl, fun _ => ⟨rfl, decide_eq_true⟩⟩

/-- An IMM whose upper byte is 0 is its lower byte. -/
theorem immField_eq_of_high_zero (h : w.extractLsb' 8 8 = 0) : (w.extractLsb' 0 8).setWidth 16 = immField w := by
  have parts : w.extractLsb' 8 8 ++ w.extractLsb' 0 8 = immField w :=
    BitVec.extractLsb'_append_extractLsb'_eq_extractLsb' rfl
  rw [← parts, h, BitVec.setWidth_eq_append (by decide)]
  rfl

/-- A command word that decodes is the encoding of the row it decodes to: the fields it holds besides OP are the
operand's or 0. -/
theorem encode_of_decodeCommand {i : Instr} (h : decodeCommand w = .ok i) : encode i = .command w ∧ i.WellFormed := by
  obtain ⟨hr, -, -⟩ := decodeCommand_ok h
  have word : commandWord (opField w) (immField w) = w := commandWord_fields w hr
  rw [decodeCommand_of_rsv_zero hr] at h
  by_cases hn : opField w ∈ noneOpcodes
  · obtain ⟨j, hj, henc, hwf⟩ := encode_of_mem_noneOpcodes hn
    obtain ⟨rfl, himm⟩ := formNone_ok (hj.symm.trans h)
    exact ⟨by rw [henc, ← himm, word], hwf⟩
  by_cases h8 : opField w ∈ imm8Opcodes
  · obtain ⟨f, hf, henc⟩ := encode_of_mem_imm8Opcodes h8
    obtain ⟨rfl, himm⟩ := formImm8_ok (hf.symm.trans h)
    obtain ⟨hx, hwf⟩ := henc (w.extractLsb' 0 8)
    exact ⟨by rw [hx, immField_eq_of_high_zero himm, word], hwf⟩
  by_cases h16 : opField w ∈ imm16Opcodes
  · obtain ⟨f, hf, henc⟩ := encode_of_mem_imm16Opcodes h16
    obtain ⟨hx, hwf⟩ := henc (immField w).toNat
    rw [formImm16_ok (hf.symm.trans h)]
    exact ⟨by rw [hx, BitVec.ofNat_toNat, BitVec.setWidth_eq, word], hwf (immField w).isLt⟩
  · cases (decodeOpcode_of_not_mem (by simp [hn, h8, h16])).symm.trans h

theorem frameRow_wellFormed (tc : BitVec 5) (c : BitVec 3) (a : BitVec 24) (m : BitVec 51) (p : BitVec 24) :
    (frameRow tc c a m p).WellFormed := by
  unfold frameRow
  split <;> rfl

/-- A frame that decodes is the frame of the row it decodes to. -/
theorem encode_of_decodeFrame {f : Frame} {i : Instr} (h : decodeFrame f = .ok i) :
    encode i = .frame f ∧ i.WellFormed := by
  unfold decodeFrame at h
  split at h
  next hdf =>
    cases h
    rw [encode_frameRow, rowFrame_fields hdf]
    exact ⟨rfl, frameRow_wellFormed _ _ _ _ _⟩
  next => cases h

end

/-- Settles O2: both decoders accept encodings only. -/
theorem encodeOfDecode : Obligations.EncodeOfDecode
  | .command _, _, h => encode_of_decodeCommand h
  | .frame _, _, h => encode_of_decodeFrame h

/-- Settles O4: one closed evaluation of the decoder for each word. -/
theorem writtenOutCodesDecode : Obligations.WrittenOutCodesDecode :=
  ⟨rfl, rfl, rfl, rfl, rfl, by decide⟩

namespace Machine

/-! ### The step that runs a word -/

section
variable {s : State} {w : CommandWord} {i : Instr}

/-- FRM.CHK of a full record whose frame matches a row fetches that row (R56, R110). -/
theorem State.fetch_frameRow (hw : decodeCommand w = .ok .frmChk) (hfull : s.scnt.val = 22)
    (hrow : decodeFrame (recordFrame s.stg) = .ok i) : s.fetch w = .ok i := by
  simp [State.fetch, hw, hfull, hrow, Config.recordBytes]

/-- A word runs the row it decodes to: a frame row fetched in the place of FRM.CHK does what FRM.CHK does. -/
theorem runWord_of_decode (h : decodeCommand w = .ok i) : runWord w s = exec i s := by
  by_cases hchk : i = .frmChk ∧ s.scnt.val = 22 ∧ ∃ j, decodeFrame (recordFrame s.stg) = .ok j
  · obtain ⟨rfl, hfull, j, hj⟩ := hchk
    rw [runWord_ok (State.fetch_frameRow h hfull hj), exec_of_encode_frame (encode_of_decodeFrame hj).1]
    rfl
  · refine runWord_ok ?_
    unfold State.fetch
    split
    next hw =>
      obtain rfl : Instr.frmChk = i := by simpa [hw] using h
      split
      next hfull =>
        split
        next j hj => exact absurd ⟨rfl, hfull, j, hj⟩ hchk
        next => rfl
      next => rfl
    next => exact h

end

/-- Settles O5: the accepted word runs the row it decodes to. -/
theorem stepRunsDecodedCommand : Obligations.StepRunsDecodedCommand := by
  intro s w rest i hs hw h
  exact (step_of_ready hs hw).trans (runWord_of_decode h)

/-- Settles O6: FRM.CHK of a full record fetches the row of its frame. -/
theorem stepRunsStagedFrame : Obligations.StepRunsStagedFrame := by
  intro s rest i hs hw hfull hrow
  exact (step_of_ready hs hw).trans (runWord_ok (State.fetch_frameRow (s := s.accept rest) rfl hfull hrow))

theorem step_idle {s : State} (hs : s.Ready) (hw : s.portC = []) : step s = .next s := by
  obtain ⟨hrst, hbusy⟩ := hs
  simp [step, hrst, hbusy, hw]

/-- Settles O10: no word, no step. -/
theorem idleBlockHolds : Obligations.IdleBlockHolds := fun _ => step_idle

/-- Settles O35: `WinRead` tests the index against LEN. -/
theorem winGetReadsTheWindow : Obligations.WinGetReadsTheWindow := by
  refine ⟨fun k hk => ?word, fun s k he => ⟨fun hk => ?inside, fun hk => exec_of_raises he (.winGet hk)⟩⟩
  case word =>
    rw [word16_eq_commandWord (by decide) hk, decodeCommand_commandWord]
    simp [decodeOpcode, Nat.mod_eq_of_lt hk]
  case inside => exact (State.command_healthy he _).trans (by rw [State.winRead_ok hk]; rfl)

end Machine

end Sys2Proof
end

section
/-! The table and `crc24` are linear, the checksum bytes give residue 0, and the CRC commands compute `crc24`
(40_crc.md R63 to R72; 30_encoding.md R61). -/

open Sys2Proof.Statements

namespace Sys2Proof.Machine

section
variable (poly : Word24)

/-! ### Linearity (R63, R65) -/

theorem tblRead_xor (t u : Byte) : tblRead poly (t ^^^ u) = tblRead poly t ^^^ tblRead poly u := by
  rw [tblRead, BitVec.setWidth_xor, BitVec.shiftLeft_xor_distrib, tableSteps_xor]
  rfl

@[simp] theorem tblRead_zero : tblRead poly 0#8 = 0#24 := tableSteps_zero poly 8

/-- Entry 1 starts from bit 16: seven steps bring it to bit 23, and the eighth replaces it by POLY. -/
theorem tblRead_one : tblRead poly 1 = poly := by
  simp [tblRead, tableSteps, tableStep]

/-- The byte comes in below the shifted residue, where there are zeros. -/
theorem shiftLeft_or_byte (c : Word24) (x : Byte) : (c <<< 8) ||| x.setWidth 24 = (c <<< 8) ^^^ x.setWidth 24 := by
  ext i hi
  by_cases h8 : i < 8
  · simp [h8]
  · simp [h8, BitVec.getLsbD_of_ge x i (not_lt.mp h8)]

/-- `Fold` is linear in the residue and the byte together. -/
theorem fold_xor (c d : Word24) (x y : Byte) :
    fold poly (c ^^^ d) (x ^^^ y) = fold poly c x ^^^ fold poly d y := by
  simp only [fold, shiftLeft_or_byte]
  rw [BitVec.shiftLeft_xor_distrib, BitVec.setWidth_xor, BitVec.extractLsb'_xor, tblRead_xor]
  ac_rfl

/-- A sequence after the sum of two residues: one part meets zeros, the other the sequence. -/
theorem foldl_fold_xor (r q : Word24) (bytes : List Byte) :
    bytes.foldl (fold poly) (r ^^^ q)
      = (bytes.map fun _ => 0#8).foldl (fold poly) r ^^^ bytes.foldl (fold poly) q := by
  induction bytes generalizing r q with
  | nil => rfl
  | cons x rest ih =>
    have first : fold poly (r ^^^ q) x = fold poly r 0#8 ^^^ fold poly q x := by
      simpa using fold_xor poly r q 0#8 x
    rw [List.foldl_cons, first, ih]
    rfl

/-! ### Residues of checksums (R67) -/

/-- While the residue has no more than two bytes, the next byte is only appended to it. -/
theorem fold_ushiftRight (c : Word24) (n : Nat) : fold poly (c >>> (n + 8)) (c.extractLsb' n 8) = c >>> n := by
  have top : (c >>> (n + 8)).extractLsb' 16 8 = 0#8 := by
    ext i hi
    simp [BitVec.getLsbD_of_ge c (n + 8 + (16 + i)) (by omega)]
  have appended : ((c >>> (n + 8)) <<< 8) ||| (c.extractLsb' n 8).setWidth 24 = c >>> n := by
    ext i hi
    by_cases h8 : i < 8
    · simp [h8]
    · simp [h8, show n + 8 + (i - 8) = n + i by omega]
  rw [fold, top, appended, tblRead_zero, BitVec.xor_zero]

/-- Three bytes alone are their own residue. -/
theorem foldl_bytesOfWord24 (c : Word24) : (bytesOfWord24 c).foldl (fold poly) 0#24 = c := by
  have empty : c >>> (16 + 8) = 0#24 := BitVec.ushiftRight_eq_zero le_rfl
  simp only [bytesOfWord24, List.foldl_cons, List.foldl_nil]
  rw [← empty, fold_ushiftRight, fold_ushiftRight poly c 8, fold_ushiftRight poly c 0, BitVec.ushiftRight_zero]

/-- Appending the bytes of c is appending zeros, and c XORed in. -/
theorem crc24_append_bytesOfWord24 (m : List Byte) (c : Word24) :
    crc24 poly (m ++ bytesOfWord24 c) = crc24 poly (m ++ [0, 0, 0]) ^^^ c := by
  have parts := foldl_fold_xor poly (crc24 poly m) 0#24 (bytesOfWord24 c)
  rw [BitVec.xor_zero, foldl_bytesOfWord24] at parts
  rw [crc24_append, parts, crc24_append]
  rfl

/-- The residue after the bytes of c is 0 exactly if c is the checksum. -/
theorem crc24_append_bytesOfWord24_eq_zero_iff {m : List Byte} {c : Word24} :
    crc24 poly (m ++ bytesOfWord24 c) = 0 ↔ c = crc24 poly (m ++ [0, 0, 0]) := by
  rw [crc24_append_bytesOfWord24, eq_comm (a := c)]
  exact BitVec.xor_eq_zero_iff

end

/-- Settles O27: entry 0, entry 1 and the linearity of the steps; the three listed entries by evaluation. -/
theorem tableIsLinear : Obligations.TableIsLinear :=
  ⟨fun poly => ⟨tblRead_zero poly, tblRead_one poly, tblRead_xor poly⟩, by decide⟩

/-- Settles O29: the bytes of c leave the checksum XOR c, which is 0 for the checksum alone. -/
theorem checksumBytesGiveZeroResidue : Obligations.ChecksumBytesGiveZeroResidue := by
  intro poly m
  refine ⟨(crc24_append_bytesOfWord24_eq_zero_iff poly).mpr rfl, crc24_append_bytesOfWord24 poly m, fun c h => ?_⟩
  rw [(crc24_append_bytesOfWord24_eq_zero_iff poly).mp h]
  rfl

/-! ### The CRC commands in sequence (R61, R72) -/

section
variable {s t u : State} {i : Instr} {is js : List Instr}

theorem execAll_cons_next (h : exec i s = .next t) : execAll (i :: is) s = execAll is t := by
  simp [execAll, h]

/-- A sequence with a next state has run its first command. -/
theorem execAll_cons (h : execAll (i :: is) s = .next u) : ∃ t, exec i s = .next t ∧ execAll is t = .next u := by
  unfold execAll at h
  split at h
  next t ht => exact ⟨t, ht, h⟩
  next => cases h
  next => cases h

theorem execAll_append_next (h : execAll is s = .next t) : execAll (is ++ js) s = execAll js t := by
  induction is generalizing s with
  | nil => cases h; rfl
  | cons i is ih =>
    obtain ⟨v, hi, hrest⟩ := execAll_cons h
    rw [List.cons_append, execAll_cons_next hi, ih hrest]

/-- A command that leaves ERR at 0 found it so: no command clears it (R155). -/
theorem exec_err_start (h : exec i s = .next t) (ht : t.err = 0) : s.err = 0 := by
  by_contra he
  refine he ?_
  by_cases hi : i = .sysStat
  · subst hi
    cases h
    exact ht
  · cases (exec_faulted he hi).symm.trans h
    exact ht

theorem execAll_err_start (h : execAll is s = .next t) (ht : t.err = 0) : s.err = 0 := by
  induction is generalizing s with
  | nil => cases h; exact ht
  | cons i is ih =>
    obtain ⟨v, hi, hrest⟩ := execAll_cons h
    exact exec_err_start hi (ih hrest)

/-- CRC.BYTE commands fold their bytes into CRCR, in order. -/
theorem execAll_crcBytes (h : List Byte) (he : s.err = 0) :
    ∃ t, execAll (h.map .crcByte) s = .next t ∧ t.crcr = h.foldl (fold s.poly) s.crcr ∧ t.err = 0 := by
  induction h generalizing s with
  | nil => exact ⟨s, rfl, rfl, he⟩
  | cons x rest ih =>
    have first : exec (.crcByte x) s = .next ({ s with crcr := fold s.poly s.crcr x }.respond .ok 0) :=
      State.command_healthy he _
    rw [List.map_cons, execAll_cons_next first]
    exact ih (s := { s with crcr := fold s.poly s.crcr x }.respond .ok 0) he

/-- CRC.RUN answers the residue of its bytes (R61). -/
theorem execAll_crcRun (h : List Byte) (he : s.err = 0) :
    ∃ t, execAll (crcRun h) s = .next t ∧ t.portR = some ⟨.ok, zext64 (crc24 s.poly h)⟩ ∧
      t.crcr = crc24 s.poly h ∧ t.err = 0 := by
  have clear : exec .crcClr s = .next ({ s with crcr := 0 }.respond .ok 0) := State.command_healthy he _
  obtain ⟨t, bytes, hcrcr, ht⟩ := execAll_crcBytes (s := { s with crcr := 0 }.respond .ok 0) h he
  have read : execAll [.crcRd] t = .next (t.respond .ok (zext64 t.crcr)) :=
    execAll_cons_next (State.command_healthy ht _)
  refine ⟨t.respond .ok (zext64 t.crcr), ?_, ?_, hcrcr, ht⟩
  · rw [crcRun, List.cons_append, execAll_cons_next clear, execAll_append_next bytes, read]
  · rw [hcrcr]
    rfl

/-- CRC.GEN is CRC.RUN of the bytes and three zeros (R61). -/
theorem crcGen_eq_crcRun (h : List Byte) : crcGen h = crcRun (h ++ [0, 0, 0]) := by
  simp [crcGen, crcRun]

end

/-- Settles O31: both pseudo-operations run CRC.RUN of some bytes, and the residue after the checksum is 0. -/
theorem checksumPseudoOperations : Obligations.ChecksumPseudoOperations := by
  intro h s he
  constructor
  · obtain ⟨t, hrun, hanswer, -, ht⟩ := execAll_crcRun (h ++ [0, 0, 0]) he
    exact ⟨t, (crcGen_eq_crcRun h).symm ▸ hrun, hanswer, ht⟩
  · obtain ⟨t, hrun, hanswer, hcrcr, -⟩ := execAll_crcRun (h ++ crc24Bytes s.poly h) he
    obtain ⟨residue, -, -⟩ := checksumBytesGiveZeroResidue s.poly h
    rw [residue] at hanswer hcrcr
    exact ⟨t, hrun, hanswer, hcrcr⟩

end Sys2Proof.Machine
end

section
/-! `crc24` as a remainder of polynomials over the field of two elements (40_crc.md R62, R65, R66). Residues are
compared in the quotient by the generator, where a step of the table is a multiplication by x. -/

open Sys2Proof.Statements Polynomial

namespace Sys2Proof.Machine

/-! ### Bit sequences as polynomials -/

theorem polynomialOf_snoc (bits : List Bool) (b : Bool) :
    polynomialOf (bits ++ [b]) = polynomialOf bits * X + (if b then 1 else 0) := by
  simp [polynomialOf]

theorem polynomialOf_append (a b : List Bool) :
    polynomialOf (a ++ b) = X ^ b.length * polynomialOf a + polynomialOf b := by
  induction b using List.reverseRecOn with
  | nil => simp [polynomialOf]
  | append_singleton b x ih =>
    rw [← List.append_assoc, polynomialOf_snoc, polynomialOf_snoc, ih, List.length_append, List.length_singleton]
    ring

/-- The last bit is the lowest coefficient. -/
theorem coeff_polynomialOf (bits : List Bool) (i : Nat) :
    (polynomialOf bits).coeff i = if bits.reverse.getD i false then 1 else 0 := by
  induction bits using List.reverseRecOn generalizing i with
  | nil => simp [polynomialOf]
  | append_singleton bits b ih =>
    rw [polynomialOf_snoc, List.reverse_append, List.reverse_singleton, List.singleton_append]
    cases i with
    | zero => cases b <;> simp
    | succ i => cases b <;> simp [ih, coeff_one]

/-- The polynomial of a value, its bit i the coefficient of x^i. -/
noncomputable def valuePolynomial {n : Nat} (v : BitVec n) : (ZMod 2)[X] := polynomialOf (bitsOf v)

section
variable {n : Nat}

@[simp] theorem coeff_valuePolynomial (v : BitVec n) (i : Nat) :
    (valuePolynomial v).coeff i = if v.getLsbD i then 1 else 0 := by
  have bit : (bitsOf v).reverse.getD i false = v.getLsbD i := by
    by_cases hi : i < n
    · simp [bitsOf, List.getD, hi, BitVec.getMsbD, show n - 1 - i < n by omega,
        show n - 1 - (n - 1 - i) = i by omega]
    · simp [bitsOf, List.getD, hi, BitVec.getLsbD_of_ge v i (not_lt.mp hi)]
  rw [valuePolynomial, coeff_polynomialOf, bit]

@[simp] theorem valuePolynomial_zero : valuePolynomial 0#n = 0 := by
  ext i
  simp

theorem valuePolynomial_xor (u v : BitVec n) :
    valuePolynomial (u ^^^ v) = valuePolynomial u + valuePolynomial v := by
  have sum : ∀ a b : Bool, (if a ^^ b then 1 else 0 : ZMod 2) = (if a then 1 else 0) + (if b then 1 else 0) := by
    decide
  ext i
  simp only [coeff_valuePolynomial, coeff_add, BitVec.getLsbD_xor, sum]

theorem valuePolynomial_setWidth {m : Nat} (h : n ≤ m) (v : BitVec n) :
    valuePolynomial (v.setWidth m) = valuePolynomial v := by
  ext i
  simp [BitVec.getLsbD_setWidth]
  grind

theorem degree_valuePolynomial_lt (v : BitVec n) : (valuePolynomial v).degree < n := by
  rw [degree_lt_iff_coeff_zero]
  intro i hi
  rw [coeff_valuePolynomial, BitVec.getLsbD_of_ge v i hi]
  rfl

/-- Multiplying by x^k shifts, and the k bits that leave the width stand above it. -/
theorem X_pow_mul_valuePolynomial (v : BitVec n) {k : Nat} (hk : k ≤ n) :
    X ^ k * valuePolynomial v
      = valuePolynomial (v <<< k) + X ^ n * valuePolynomial (v.extractLsb' (n - k) k) := by
  ext i
  rw [coeff_add, coeff_X_pow_mul', coeff_X_pow_mul']
  simp only [coeff_valuePolynomial, BitVec.getLsbD_shiftLeft, BitVec.getLsbD_extractLsb']
  by_cases hki : k ≤ i
  · by_cases hi : i < n
    · simp [hki, hi, show ¬ n ≤ i by omega]
    · by_cases hk' : i - n < k
      · simp [hki, hi, hk', show n ≤ i by omega, show n - k + (i - n) = i - k by omega]
      · simp [hki, hi, hk', BitVec.getLsbD_of_ge v (i - k) (by omega)]
  · simp [hki, show ¬ n ≤ i by omega]

end

/-! ### Residues in the quotient by the generator -/

section
variable (poly : Word24)

theorem monic_generator : (generator poly).Monic := monic_X_pow_add (degree_valuePolynomial_lt poly)

theorem degree_generator : (generator poly).degree = 24 := by
  have low : (valuePolynomial poly).degree < (X ^ 24 : (ZMod 2)[X]).degree := by
    rw [degree_X_pow]
    exact degree_valuePolynomial_lt poly
  exact (degree_add_eq_left_of_degree_lt low).trans (degree_X_pow 24)

/-- The class of a value modulo the generator. -/
noncomputable def residueClass {n : Nat} (v : BitVec n) : AdjoinRoot (generator poly) :=
  AdjoinRoot.mk (generator poly) (valuePolynomial v)

/-- The class of x modulo the generator. -/
noncomputable def xClass : AdjoinRoot (generator poly) := AdjoinRoot.root (generator poly)

@[simp] theorem mk_X_pow (k : Nat) : AdjoinRoot.mk (generator poly) (X ^ k) = xClass poly ^ k := by
  rw [map_pow, AdjoinRoot.mk_X, xClass]

/-- The generator is 0: x^24 is POLY, since plus is minus. -/
theorem xClass_pow_24 : xClass poly ^ 24 = residueClass poly poly := by
  rw [← mk_X_pow, residueClass, AdjoinRoot.mk_eq_mk, CharTwo.sub_eq_add]
  exact dvd_rfl

theorem residueClass_xor {n : Nat} (u v : BitVec n) :
    residueClass poly (u ^^^ v) = residueClass poly u + residueClass poly v := by
  rw [residueClass, valuePolynomial_xor, map_add]
  rfl

@[simp] theorem residueClass_zero (n : Nat) : residueClass poly 0#n = 0 := by simp [residueClass]

theorem residueClass_setWidth {n m : Nat} (h : n ≤ m) (v : BitVec n) :
    residueClass poly (v.setWidth m) = residueClass poly v := by
  rw [residueClass, valuePolynomial_setWidth h, residueClass]

/-- Shifting multiplies by x, apart from the bits that leave the width. -/
theorem residueClass_shiftLeft {n : Nat} (v : BitVec n) {k : Nat} (hk : k ≤ n) :
    xClass poly ^ k * residueClass poly v
      = residueClass poly (v <<< k) + xClass poly ^ n * residueClass poly (v.extractLsb' (n - k) k) := by
  have classes := congrArg (AdjoinRoot.mk (generator poly)) (X_pow_mul_valuePolynomial v hk)
  rwa [map_mul, map_add, map_mul, mk_X_pow, mk_X_pow] at classes

/-! ### The table and the fold -/

/-- One step of the table multiplies by x: the bit shifted out stands for x^24, which is POLY (R63). -/
theorem residueClass_tableStep (v : Word24) :
    residueClass poly (tableStep poly v) = xClass poly * residueClass poly v := by
  have top : v.extractLsb' 23 1 = BitVec.ofBool (v.getLsbD 23) := by
    ext i hi
    simp [show i = 0 by omega]
  have one : residueClass poly (BitVec.ofBool true) = 1 := by
    simp [residueClass, valuePolynomial, polynomialOf, bitsOf]
  have zero : residueClass poly (BitVec.ofBool false) = 0 := residueClass_zero poly 1
  have shifted := residueClass_shiftLeft poly v (k := 1) (by decide)
  rw [top, xClass_pow_24, pow_one] at shifted
  rw [shifted, tableStep]
  split
  next hbit => rw [hbit, one, mul_one, residueClass_xor]
  next hbit => rw [Bool.eq_false_iff.mpr hbit, zero, mul_zero, add_zero]

theorem residueClass_tableSteps (k : Nat) (v : Word24) :
    residueClass poly (tableSteps poly k v) = xClass poly ^ k * residueClass poly v := by
  induction k generalizing v with
  | zero => simp [tableSteps]
  | succ k ih =>
    rw [tableSteps, ih, residueClass_tableStep]
    ring

/-- Entry t of the table is t times x^24 (R63). -/
theorem residueClass_tblRead (t : Byte) :
    residueClass poly (tblRead poly t) = xClass poly ^ 24 * residueClass poly t := by
  have nothing_lost : (t.setWidth 24).extractLsb' 8 16 = 0#16 := by
    ext i hi
    simp
  have shifted := residueClass_shiftLeft poly (t.setWidth 24) (k := 16) (by decide)
  rw [nothing_lost, residueClass_zero, mul_zero, add_zero, residueClass_setWidth poly (by decide)] at shifted
  rw [tblRead, residueClass_tableSteps, ← shifted]
  ring

/-- `Fold` multiplies the residue by x^8 and adds the byte (R65). -/
theorem residueClass_fold (c : Word24) (x : Byte) :
    residueClass poly (fold poly c x) = xClass poly ^ 8 * residueClass poly c + residueClass poly x := by
  rw [fold, shiftLeft_or_byte, residueClass_xor, residueClass_xor, residueClass_tblRead,
    residueClass_setWidth poly (by decide), residueClass_shiftLeft poly c (by decide : 8 ≤ 24)]
  ring

/-- `crc24` has the class of its whole sequence (R66). -/
theorem residueClass_crc24 (bytes : List Byte) :
    residueClass poly (crc24 poly bytes)
      = AdjoinRoot.mk (generator poly) (polynomialOf (bytes.flatMap bitsOf)) := by
  induction bytes using List.reverseRecOn with
  | nil => simp [polynomialOf]
  | append_singleton bytes x ih =>
    have eight : (bitsOf x).length = 8 := by simp [bitsOf]
    rw [crc24_snoc, residueClass_fold, ih, List.flatMap_append, List.flatMap_singleton, polynomialOf_append, eight,
      map_add, map_mul, mk_X_pow]
    rfl

end

/-- Settles O28: the two sides are congruent modulo the generator, and the 24 bits of `crc24` have a lower degree. -/
theorem crc24IsPolynomialRemainder : Obligations.Crc24IsPolynomialRemainder := by
  intro poly bytes
  have congruent : generator poly ∣ polynomialOf (bytes.flatMap bitsOf) - valuePolynomial (crc24 poly bytes) :=
    AdjoinRoot.mk_eq_mk.mp (residueClass_crc24 poly bytes).symm
  have reduced : (valuePolynomial (crc24 poly bytes)).degree < (generator poly).degree := by
    rw [degree_generator]
    exact degree_valuePolynomial_lt _
  rw [modByMonic_eq_of_dvd_sub (monic_generator poly) congruent]
  exact ((modByMonic_eq_self_iff (monic_generator poly)).mpr reduced).symm

end Sys2Proof.Machine
end

section
/-! What a command can leave, said once for all rows: the answers of the rows that pull no samples, and the ends of a
run of `Advance` operations (30_encoding.md R47; 41_window.md R79, R80; 43_frame_sync.md R96 to R98). -/

open Sys2Proof.Statements

namespace Sys2Proof.Machine

/-! ### The rows that pull no samples -/

/-- What a row that pulls no samples can leave: an answer, and besides only what its unit writes. -/
inductive Answers (i : Instr) (s : State) : State → Prop where
  | ok (result : Word64) : Answers i s (s.respond .ok result)
  | refused (he : s.err ≠ 0) : Answers i s s.refuseFaulted
  | raised (he : s.err = 0) (e : Cause) : Answers i s (s.raise e)
  | crc (hi : i = .crcClr ∨ ∃ x, i = .crcByte x) (c : Word24) : Answers i s ({ s with crcr := c }.respond .ok 0)
  | staged {x : Byte} (hi : i = .frmPutb x) (r : Record) (n : Fin 23) :
      Answers i s ({ s with stg := r, scnt := n }.respond .ok 0)
  | received (hi : i = .frmChk ∨ isFrameRow i) {c : Frame} (hc : validate s.poly c = true) (ts : Word64) :
      Answers i s ({ s with scnt := 0, frTs := ts, frB := c, frv := true }.respond .ok 1)
  | dropped (hi : i = .frmChk ∨ isFrameRow i) : Answers i s ({ s with scnt := 0, frv := false }.respond .ok 0)

/-- An outcome that is a next state with a property. -/
def NextWith (P : State → Prop) (o : Outcome) : Prop := ∃ t, o = .next t ∧ P t

section
variable {i : Instr} {s t : State}

theorem State.command_nextWith {k : Outcome} (h : s.err = 0 → NextWith (Answers i s) k) :
    NextWith (Answers i s) (s.command k) := by
  by_cases he : s.err = 0
  · rw [State.command_healthy he]
    exact h he
  · exact ⟨_, State.command_faulted he k, .refused he⟩

theorem State.checkFrame_nextWith (hi : i = .frmChk ∨ isFrameRow i) (c : Frame) :
    NextWith (Answers i s) (s.checkFrame c) := by
  refine State.command_nextWith fun he => ?_
  split
  · exact ⟨_, rfl, .raised he .stage⟩
  · refine ⟨_, rfl, ?_⟩
    by_cases hc : validate s.poly c = true
    · rw [State.receiveFrame_valid hc]
      exact .received hi hc _
    · rw [State.receiveFrame_invalid hc]
      exact .dropped hi

theorem State.answerFromFrame_nextWith (v : Word64) : NextWith (Answers i s) (s.answerFromFrame v) := by
  refine State.command_nextWith fun he => ?_
  split
  · exact ⟨_, rfl, .raised he .noFrame⟩
  · exact ⟨_, rfl, .ok v⟩

/-- A row that pulls no samples always has a next state, and it is one of these answers. -/
theorem exec_nextWith_answers (hi : ¬ pullsSamples i) (s : State) : NextWith (Answers i s) (exec i s) := by
  cases i with
  | winAdv | winAdvn | demNext => exact absurd trivial hi
  | sysStat => exact ⟨_, rfl, .ok _⟩
  | crcClr => exact State.command_nextWith fun _ => ⟨_, rfl, .crc (.inl rfl) 0⟩
  | crcByte x => exact State.command_nextWith fun _ => ⟨_, rfl, .crc (.inr ⟨x, rfl⟩) _⟩
  | crcRd | crcTab | winPos | winFull => exact State.command_nextWith fun _ => ⟨_, rfl, .ok _⟩
  | winGet k | frmByte k =>
    refine State.command_nextWith fun he => ?_
    split
    · exact ⟨_, rfl, .ok _⟩
    · exact ⟨_, rfl, .raised he _⟩
  | frmPutb x =>
    refine State.command_nextWith fun he => ?_
    split
    · exact ⟨_, rfl, .staged rfl _ _⟩
    · exact ⟨_, rfl, .raised he .stage⟩
  | frmDf | frmIcao | frmMe | frmTc | frmKind | frmTs => exact State.answerFromFrame_nextWith _
  | frmChk => exact State.checkFrame_nextWith (.inl rfl) _
  | _ => exact State.checkFrame_nextWith (.inr ⟨_, rfl⟩) _

theorem exec_answers (hi : ¬ pullsSamples i) (h : exec i s = .next t) : Answers i s t := by
  obtain ⟨u, hu, ht⟩ := exec_nextWith_answers hi s
  cases hu.symm.trans h
  exact ht

/-- An answer leaves no command in progress. -/
theorem Answers.busy_eq (h : Answers i s t) : t.busy = none := by
  cases h <;> rfl

end

/-! ### Runs of `Advance` -/

/-- `t` is reached from `s` by completed `Advance` operations. -/
inductive Advances (s : State) : State → Prop where
  | refl : Advances s s
  | next {t u : State} (h : Advances s t) (ha : advance t = .done u) : Advances s u

/-- Port S has neither a sample nor the end mark (R33). -/
def State.SourceWaits (s : State) : Prop := s.portS = [] ∧ s.srcEnded = false

/-- How `AdvanceBy(n)` and the answer after it end: with the answer, or waiting with the operations that are left. -/
inductive RunResult (s : State) (n : Nat) (result : Word64) (wait : Nat → Busy) : State → Prop where
  | answered {u : State} (h : advanceBy n s = .done u) : RunResult s n result wait (u.respond .ok result)
  | waits {left : Nat} {u : State} (h : advanceBy n s = .wait left u) :
      RunResult s n result wait { u with busy := some (wait left) }

/-- The window is as the fill phase leaves it: DEM.NEXT scans with fewer than W samples only past the end (R98). -/
def State.Filled (s : State) : Prop := s.len < s.capacity → s.eos = true

/-- How DEM.NEXT ends from some point in its fill phase or its scan on (R96 to R98). -/
inductive DemResult (s : State) : State → Prop where
  | emitted {u t : State} {prev : Nat} {c : Frame} (h : Advances s u) (hfull : u.len = u.capacity)
      (hd : u.demodStep prev = .accept c) (hpos : u.pos.toNat < Config.positionLimit)
      (hskip : RunResult (u.emit c) Config.messageSamples 1 .demSkip t) : DemResult s t
  | exhausted {u : State} (h : Advances s u) (hnot : u.len ≠ u.capacity) (hend : u.Filled) :
      DemResult s ({ u with frv := false }.respond .ok 0)
  | waitsInStep {u : State} (h : Advances s u) (hfull : u.len = u.capacity) (hw : u.SourceWaits) :
      DemResult s { u with busy := some (.demStep u.peakSum) }
  | waitsInFill {u : State} (h : Advances s u) (hlen : u.len < u.capacity) (hw : u.SourceWaits) :
      DemResult s { u with busy := some .demFill }

section
variable {s t u : State} {n left : Nat}

theorem Advances.keeps {P : State → Prop} (hP : ∀ s t, P s → advance s = .done t → P t) (h : Advances s t)
    (hs : P s) : P t := by
  induction h with
  | refl => exact hs
  | next _ ha ih => exact hP _ _ ih ha

theorem Advances.trans (h : Advances s t) (h' : Advances t u) : Advances s u :=
  h'.keeps (fun _ _ => .next) h

/-- A run of `Advance` moves only the window, POS, EOS and port S. -/
theorem Advances.frame (h : Advances s t) :
    t = { s with wbuf := t.wbuf, pos := t.pos, eos := t.eos, portS := t.portS } := by
  induction h with
  | refl => rfl
  | next _ ha ih =>
    refine (advance_frame ha).trans ?_
    rw [ih]

theorem Advances.capacity_eq (h : Advances s t) : t.capacity = s.capacity := by rw [h.frame]

theorem advanceBy_done_advances (h : advanceBy n s = .done u) : Advances s u :=
  (advanceBy_keeps (P := Advances s) (fun _ _ => .next) n s .refl).1 u h

theorem advanceBy_wait_advances (h : advanceBy n s = .wait left u) :
    Advances s u ∧ u.SourceWaits ∧ 1 ≤ left ∧ left ≤ n := by
  obtain ⟨hu, hport, hsrc, hlow, hhigh⟩ := (advanceBy_keeps (P := Advances s) (fun _ _ => .next) n s .refl).2 left u h
  exact ⟨hu, ⟨hport, hsrc⟩, hlow, hhigh⟩

theorem fill_done_advances (h : fill n s = .done u) : Advances s u :=
  (fill_keeps (P := Advances s) (fun _ _ => .next) n s .refl).1 u h

theorem fill_wait_advances (h : fill n s = .wait left u) : Advances s u ∧ u.SourceWaits := by
  obtain ⟨hu, hport, hsrc, -⟩ := (fill_keeps (P := Advances s) (fun _ _ => .next) n s .refl).2 left u h
  exact ⟨hu, hport, hsrc⟩

/-- `Advance` is `AdvanceBy(1)`. -/
theorem advanceBy_one (s : State) : advanceBy 1 s = advance s := by
  cases h : advance s with
  | done u => rw [advanceBy_succ_done h, advanceBy_zero]
  | wait k u =>
    obtain ⟨rfl, -⟩ := advance_wait h
    simp [advanceBy, h]
  | fault | refused => simp [advanceBy, h]

/-! ### The commands that pull samples -/

/-- The shape of WIN.ADV, WIN.ADVN and the skip. -/
theorem advanceBy_resolve_result {result : Word64} {wait : Nat → Busy}
    (h : (advanceBy n s).resolve (fun u => .next (u.respond .ok result))
      (fun left u => .next { u with busy := some (wait left) }) = .next t) : RunResult s n result wait t := by
  obtain ⟨u, hu, ht⟩ | ⟨left, u, hu, ht⟩ := Progress.resolve_next h <;> cases ht
  · exact .answered hu
  · exact .waits hu

theorem runAdv_result (h : runAdv s = .next t) : RunResult s 1 0 (fun _ => .adv) t := by
  refine advanceBy_resolve_result ?_
  rw [advanceBy_one]
  exact h

theorem runAdvN_result (h : runAdvN n s = .next t) : RunResult s n 0 .advN t := advanceBy_resolve_result h

theorem demSkip_result (h : demSkip n s = .next t) : RunResult s n 1 .demSkip t := advanceBy_resolve_result h

/-! ### The turns of the scan (R97, R98) -/

section
variable {prev : Nat}

/-- A turn that ends the scan whatever comes after it is the whole scan. -/
theorem scan_of_last_turn {r : Scan} (h : ∀ onward, scanTurn prev s onward = r) : scan s.portS prev s = r := by
  cases s.portS with
  | nil => exact h _
  | cons v rest => exact h _

/-- A window that is not full ends the scan. -/
theorem demScan_not_full (hnot : s.len ≠ s.capacity) :
    demScan prev s = .next ({ s with frv := false }.respond .ok 0) := by
  have exhausted : scan s.portS prev s = .exhausted s :=
    scan_of_last_turn fun _ => if_neg (State.full_iff.not.mpr hnot)
  rw [demScan, exhausted]

/-- At the end of the stream a full window loses its oldest sample, so it is full no more (R16). -/
theorem advance_end_not_full (hc : 0 < s.capacity) (hl : s.len = s.capacity) (hs : s.portS = [])
    (ha : advance s = .done t) : t.len ≠ t.capacity := by
  obtain ⟨v, rest, hv, -⟩ | ⟨-, -, rfl⟩ := advance_done ha
  · cases hs.symm.trans hv
  · show s.retained.length ≠ s.capacity
    rw [State.retained_of_full hl, List.length_tail]
    show s.len - 1 ≠ s.capacity
    omega

/-- What a turn makes of the `Advance` of a rejected position. -/
def Progress.toScan (p : Progress) (whenDone whenWaiting : State → Scan) : Scan :=
  match p with
  | .done s => whenDone s
  | .wait _ s => whenWaiting s
  | .fault f => .fault f
  | .refused r => .refused r

theorem scanTurn_rejected {onward : Nat → State → Scan} (hl : s.len = s.capacity)
    (hreject : ∀ c, s.demodStep prev ≠ .accept c) :
    scanTurn prev s onward = (advance s).toScan (onward s.peakSum) (.wait s.peakSum) := by
  have full : s.full = true := State.full_iff.mpr hl
  cases hd : s.demodStep prev with
  | accept c => exact absurd hd (hreject c)
  | rejectPeak | rejectFloor | rejectFormat | rejectCrc => simp [scanTurn, full, hd]; rfl

/-- A rejected position is left by its `Advance`, from which the scan goes on. -/
theorem demScan_reject (hc : 0 < s.capacity) (hl : s.len = s.capacity) (hreject : ∀ c, s.demodStep prev ≠ .accept c) :
    demScan prev s = demMove s.peakSum s := by
  have turn {p : Progress} (ha : advance s = p) (onward : Nat → State → Scan) :
      scanTurn prev s onward = p.toScan (onward s.peakSum) (.wait s.peakSum) :=
    ha ▸ scanTurn_rejected hl hreject
  cases ha : advance s with
  | done u =>
    have move : demMove s.peakSum s = demScan s.peakSum u := by rw [demMove, ha, Progress.resolve]
    rw [move]
    obtain ⟨v, rest, hs, -, -, rfl⟩ | ⟨hs, -, -⟩ := advance_done ha
    · exact demScan_reject_sample hl hreject hs ha
    · rw [demScan_reject_end hl hreject hs ha, demScan_not_full (advance_end_not_full hc hl hs ha)]
  | wait | fault | refused => rw [demScan, scan_of_last_turn (turn ha), demMove, ha]; rfl

/-- Induction along the turns of the scan: a window that is not full, an accepted position, and a rejected one, which
the scan leaves by an `Advance`. -/
theorem scan_induction {motive : Nat → State → Prop}
    (exhausted : ∀ prev s, s.len ≠ s.capacity → motive prev s)
    (accepted : ∀ prev s c, s.len = s.capacity → s.demodStep prev = .accept c → motive prev s)
    (rejected : ∀ prev s, 0 < s.capacity → s.len = s.capacity → (∀ c, s.demodStep prev ≠ .accept c) →
      (∀ u, advance s = .done u → motive s.peakSum u) → motive prev s)
    (prev : Nat) (s : State) (hc : 0 < s.capacity) : motive prev s := by
  have turn (prev : Nat) (s : State) (hc : 0 < s.capacity)
      (onward : s.len = s.capacity → ∀ u, advance s = .done u → motive s.peakSum u) : motive prev s := by
    by_cases hl : s.len = s.capacity
    · by_cases hd : ∃ c, s.demodStep prev = .accept c
      · obtain ⟨c, hd⟩ := hd
        exact accepted prev s c hl hd
      · exact rejected prev s hc hl (not_exists.mp hd) (onward hl)
    · exact exhausted prev s hl
  induction hs : s.portS generalizing prev s with
  | nil => exact turn prev s hc fun hl u ha => exhausted _ u (advance_end_not_full hc hl hs ha)
  | cons v rest ih =>
    refine turn prev s hc fun _ u ha => ?_
    obtain ⟨v', rest', hs', -, -, rfl⟩ | ⟨hs', -, -⟩ := advance_done ha
    · exact ih _ _ hc (List.cons.inj (hs'.symm.trans hs)).2
    · cases hs'.symm.trans hs

end

/-! ### How DEM.NEXT ends -/

theorem DemResult.of_advances (h : Advances s u) (hr : DemResult u t) : DemResult s t := by
  cases hr with
  | emitted h' hfull hd hpos hskip => exact .emitted (h.trans h') hfull hd hpos hskip
  | exhausted h' hnot hend => exact .exhausted (h.trans h') hnot hend
  | waitsInStep h' hfull hw => exact .waitsInStep (h.trans h') hfull hw
  | waitsInFill h' hlen hw => exact .waitsInFill (h.trans h') hlen hw

theorem demEmit_result {prev : Nat} {c : Frame} (hl : s.len = s.capacity) (hd : s.demodStep prev = .accept c)
    (h : demEmit c s = .next t) : DemResult s t := by
  unfold demEmit at h
  split at h
  next => cases h
  next hpos => exact .emitted .refl hl hd (not_le.mp hpos) (demSkip_result h)

/-- A full window that gives up its oldest sample for a new one is full. -/
theorem State.length_retained_append (hc : 0 < s.capacity) (hl : s.len = s.capacity) (v : Nat) :
    (s.retained ++ [v]).length = s.capacity := by
  rw [State.retained_of_full hl, List.length_append, List.length_tail, List.length_singleton]
  show s.len - 1 + 1 = s.capacity
  omega

/-- The `Advance` of a full window leaves it full, or it has found the end of the stream. -/
theorem advance_filled (hc : 0 < s.capacity) (hl : s.len = s.capacity) (ha : advance s = .done t) : t.Filled := by
  obtain ⟨v, rest, -, -, -, rfl⟩ | ⟨-, -, rfl⟩ := advance_done ha
  · exact fun hlt => absurd (State.length_retained_append hc hl v) hlt.ne
  · exact fun _ => rfl

theorem demScan_result (hc : 0 < s.capacity) {prev : Nat} : s.Filled → demScan prev s = .next t → DemResult s t := by
  refine scan_induction (motive := fun prev s => s.Filled → demScan prev s = .next t → DemResult s t) ?exhausted
    ?accepted ?rejected prev s hc
  case exhausted =>
    intro prev s hnot hs h
    cases (demScan_not_full hnot).symm.trans h
    exact .exhausted .refl hnot hs
  case accepted =>
    intro prev s c hl hd _ h
    exact demEmit_result hl hd ((demScan_accept hl hd).symm.trans h)
  case rejected =>
    intro prev s hc hl hreject onward _ h
    obtain ⟨u, hu, ht⟩ | ⟨left, u, hu, ht⟩ := Progress.resolve_next ((demScan_reject hc hl hreject).symm.trans h)
    · exact (onward u hu (advance_filled hc hl hu) ht).of_advances (.next .refl hu)
    · obtain ⟨-, rfl, hs, hsrc⟩ := advance_wait hu
      cases ht
      exact .waitsInStep .refl hl ⟨hs, hsrc⟩

/-- Going on after a rejected position, whose peak sum was kept (R97, R165). -/
theorem demMove_result (hc : 0 < s.capacity) (hl : s.len = s.capacity) (h : demMove s.peakSum s = .next t) :
    DemResult s t := by
  obtain ⟨u, hu, ht⟩ | ⟨left, u, hu, ht⟩ := Progress.resolve_next h
  · have capacity : u.capacity = s.capacity := (Advances.refl.next hu).capacity_eq
    exact (demScan_result (capacity ▸ hc) (advance_filled hc hl hu) ht).of_advances (.next .refl hu)
  · obtain ⟨-, rfl, hs, hsrc⟩ := advance_wait hu
    cases ht
    exact .waitsInStep .refl hl ⟨hs, hsrc⟩

/-- In a window that is not full `Advance` adds a sample, or it finds the end of the stream. -/
theorem advance_of_not_full (hl : s.len < s.capacity) (ha : advance s = .done t) :
    t.capacity = s.capacity ∧ (t.len = s.len + 1 ∨ t.eos = true) := by
  refine ⟨(Advances.refl.next ha).capacity_eq, ?_⟩
  obtain ⟨v, rest, -, -, -, rfl⟩ | ⟨-, -, rfl⟩ := advance_done ha
  · left
    show (s.retained ++ [v]).length = s.len + 1
    rw [State.retained_of_not_full hl, List.length_append]
    rfl
  · exact .inr rfl

/-- The fill phase, which takes the samples that are missing: it completes with all of them or at the end of the stream,
and while it waits it has left those that are still missing (R98). -/
theorem fill_len : ∀ {n : Nat} {s : State}, s.len + n = s.capacity →
    (∀ u, fill n s = .done u → u.Filled) ∧
    ∀ left u, fill n s = .wait left u → u.len + left = u.capacity ∧ 0 < left := by
  intro n
  induction n with
  | zero =>
    refine fun {s} hl => ⟨fun u h => ?_, nofun⟩
    cases h
    exact fun hlt => absurd hl hlt.ne
  | succ n ih =>
    intro s hl
    by_cases heos : s.eos = true
    · rw [fill_ended heos]
      refine ⟨fun u h => ?_, nofun⟩
      cases h
      exact fun _ => heos
    rw [Bool.not_eq_true] at heos
    cases ha : advance s with
    | done v =>
      rw [fill_succ_done heos ha]
      obtain ⟨hc, hlen | hended⟩ := advance_of_not_full (by omega) ha
      · exact ih (by omega)
      · rw [fill_ended hended]
        refine ⟨fun u h => ?_, nofun⟩
        cases h
        exact fun _ => hended
    | wait k v =>
      obtain ⟨-, rfl, -, -⟩ := advance_wait ha
      rw [fill_succ_wait heos ha]
      refine ⟨nofun, fun left u h => ?_⟩
      cases h
      exact ⟨hl, Nat.succ_pos n⟩
    | fault | refused => simp [fill, heos, ha]

theorem demFill_done_filled (h : fill (s.capacity - s.len) s = .done u) : u.Filled := by
  by_cases hl : s.len ≤ s.capacity
  · exact (fill_len (by omega)).1 u h
  · rw [Nat.sub_eq_zero_of_le (by omega)] at h
    cases h
    exact fun hlt => absurd hlt.le hl

theorem demFill_wait_len (h : fill (s.capacity - s.len) s = .wait left u) : u.len + left = u.capacity ∧ 0 < left := by
  by_cases hl : s.len ≤ s.capacity
  · exact (fill_len (by omega)).2 left u h
  · rw [Nat.sub_eq_zero_of_le (by omega)] at h
    cases h

theorem demFill_result (hc : 0 < s.capacity) (h : demFill s = .next t) : DemResult s t := by
  obtain ⟨u, hu, ht⟩ | ⟨left, u, hu, ht⟩ := Progress.resolve_next h
  · have advances := fill_done_advances hu
    exact (demScan_result (advances.capacity_eq ▸ hc) (demFill_done_filled hu) ht).of_advances advances
  · obtain ⟨advances, hw⟩ := fill_wait_advances hu
    obtain ⟨hlen, hleft⟩ := demFill_wait_len hu
    cases ht
    exact .waitsInFill advances (by omega) hw

end

/-! ### All rows -/

/-- What a row that pulls samples can leave. -/
inductive Pulls (s : State) : Instr → State → Prop where
  | refused {i : Instr} (he : s.err ≠ 0) : Pulls s i s.refuseFaulted
  | winAdv {t : State} (he : s.err = 0) (h : RunResult s 1 0 (fun _ => .adv) t) : Pulls s .winAdv t
  | winAdvn {n : Nat} {t : State} (he : s.err = 0) (h : RunResult s n 0 .advN t) : Pulls s (.winAdvn n) t
  | demNext {t : State} (he : s.err = 0) (hc : Config.minCapacity ≤ s.capacity) (h : DemResult s t) :
      Pulls s .demNext t

section
variable {i : Instr} {s t : State} {P : State → Prop}

/-- DEM.NEXT in a block that is not faulted needs a window of 1196 samples (R22). -/
theorem execDemNext_next (he : s.err = 0) (h : exec .demNext s = .next t) :
    Config.minCapacity ≤ s.capacity ∧ demFill s = .next t := by
  have h := (State.command_healthy he _).symm.trans h
  split at h
  next => cases h
  next hc => exact ⟨not_lt.mp hc, h⟩

theorem exec_pulls (hi : pullsSamples i) (h : exec i s = .next t) : Pulls s i t := by
  by_cases he : s.err = 0
  swap
  · have notStat : i ≠ .sysStat := by rintro rfl; exact hi
    cases (exec_faulted he notStat).symm.trans h
    exact .refused he
  cases i with
  | winAdv => exact .winAdv he (runAdv_result ((State.command_healthy he _).symm.trans h))
  | winAdvn n => exact .winAdvn he (runAdvN_result ((State.command_healthy he _).symm.trans h))
  | demNext =>
    obtain ⟨hc, hfill⟩ := execDemNext_next he h
    exact .demNext he hc (demFill_result (Nat.lt_of_lt_of_le (by decide) hc) hfill)
  | _ => exact hi.elim

/-- A row that pulls samples keeps what `Advance` and the answer keep, and what DEM.NEXT keeps if it is DEM.NEXT. -/
theorem exec_keeps_of_pulls (hP : KeptByAdvances P) (hdem : i = .demNext → KeptByDemodulator P) (hi : pullsSamples i)
    (hs : P s) (h : exec i s = .next t) : P t := by
  by_cases he : s.err = 0
  swap
  · have notStat : i ≠ .sysStat := by rintro rfl; exact hi
    cases (exec_faulted he notStat).symm.trans h
    exact hP.answer s _ _ hs
  cases i with
  | winAdv => exact runAdv_keeps hP hs ((State.command_healthy he _).symm.trans h)
  | winAdvn n => exact runAdvN_keeps hP hs ((State.command_healthy he _).symm.trans h)
  | demNext => exact demFill_keeps (hdem rfl) hs (execDemNext_next he h).2
  | _ => exact hi.elim

end

end Sys2Proof.Machine
end

section
/-! The invariant of the block (10_state.md R13 to R22, 41_window.md R73), kept by every step and by the environment. -/

open Sys2Proof.Statements

namespace Sys2Proof.Machine

/-! ### The invariant without the waiting command -/

/-- The invariant of the block but for what it says of a command in progress. -/
def State.InvIdle (s : State) : Prop := State.Inv { s with busy := none }

section
variable {s t u : State}

theorem State.Inv.idle (h : s.Inv) : s.InvIdle := { h with busy_legal := nofun }

theorem State.InvIdle.inv (h : s.InvIdle)
    (hb : ∀ b, s.busy = some b → s.err = 0 ∧ s.eos = false ∧ s.portR = none ∧ b.legal s) : s.Inv :=
  { h with busy_legal := hb }

theorem State.InvIdle.inv_of_busy_none (h : s.InvIdle) (hb : s.busy = none) : s.Inv :=
  h.inv fun _ hsome => nomatch hb.symm.trans hsome

/-- A window that has given up its oldest sample for a new one is within its capacity (R73, R74). -/
theorem State.length_retained (hc : 0 < s.capacity) (hl : s.len ≤ s.capacity) :
    s.retained.length < s.capacity ∧ s.retained.length ≤ s.len := by
  rw [State.retained_eq_drop hl, List.length_drop]
  show s.len - (s.len + 1 - s.capacity) < s.capacity ∧ s.len - (s.len + 1 - s.capacity) ≤ s.len
  omega

theorem State.mem_retained {v : Nat} (h : v ∈ s.retained) : v ∈ s.wbuf := by
  rw [State.retained_eq_ite] at h
  split at h
  · exact List.mem_of_mem_tail h
  · exact h

/-- `Advance` keeps the invariant (R13 to R16, R73, R74). -/
theorem State.InvIdle.advance (hs : s.InvIdle) (ha : advance s = .done t) : t.InvIdle := by
  have hw : Config.minCapacity ≤ s.capacity := hs.capacity_legal
  have hc : 0 < s.capacity := Nat.lt_of_lt_of_le (by decide) hw
  have hl : s.len ≤ s.capacity := hs.len_le_capacity
  have hp : s.len ≤ s.pos.toNat := hs.len_le_pos
  obtain ⟨below, le_len⟩ := State.length_retained hc hl
  obtain ⟨v, rest, hport, hv, hpos, rfl⟩ | ⟨hport, hsrc, rfl⟩ := advance_done ha
  · have pos : (s.pos + 1).toNat = s.pos.toNat + 1 := State.toNat_pos_consume (s := s) (n := 1) hpos
    have len : (s.retained ++ [v]).length = s.retained.length + 1 := List.length_append
    exact {
      hs with
      len_le_capacity := len.trans_le below
      len_le_pos := by show (s.retained ++ [v]).length ≤ (s.pos + 1).toNat; omega
      pos_in_domain := pos.trans_lt hpos
      samples_fit := fun x hx => by
        obtain hx | hx := List.mem_append.mp hx
        · exact hs.samples_fit x (State.mem_retained hx)
        · rw [List.mem_singleton.mp hx]
          exact hv
      eos_source := fun he => nomatch hport.symm.trans (hs.eos_source he).1
      eos_not_full := fun he => nomatch hport.symm.trans (hs.eos_source he).1
      busy_legal := nofun }
  · exact {
      hs with
      len_le_capacity := below.le
      len_le_pos := le_len.trans hp
      samples_fit := fun x hx => hs.samples_fit x (State.mem_retained hx)
      eos_source := fun _ => ⟨hport, hsrc⟩
      eos_not_full := fun _ => below
      busy_legal := nofun }

/-- The answer, the wait and a valid frame keep it too. -/
theorem State.InvIdle.answer (hs : s.InvIdle) (r : Option Response) (b : Option Busy) :
    State.InvIdle { s with portR := r, busy := b } := { hs with busy_legal := nofun }

theorem State.InvIdle.noFrame (hs : s.InvIdle) : State.InvIdle { s with frv := false } :=
  { hs with frame_valid := nofun, busy_legal := nofun }

theorem State.InvIdle.emit (hs : s.InvIdle) {c : Frame} (hc : validate s.poly c = true) : (s.emit c).InvIdle :=
  { hs with frame_valid := fun _ => hc, busy_legal := nofun }

theorem State.InvIdle.advances (hs : s.InvIdle) (h : Advances s t) : t.InvIdle :=
  h.keeps (P := State.InvIdle) (fun _ _ => State.InvIdle.advance) hs

/-! ### The commands that pull samples -/

/-- What the invariant asks of a state in which a command goes on: not faulted, and not yet answered. -/
structure State.Pending (s : State) : Prop where
  inv : s.InvIdle
  err : s.err = 0
  portR : s.portR = none

theorem State.Pending.advances (hs : s.Pending) (h : Advances s t) : t.Pending :=
  ⟨hs.inv.advances h, by rw [h.frame]; exact hs.err, by rw [h.frame]; exact hs.portR⟩

/-- A command that waits with something to do meets the invariant; EOS is 0, or the source would have ended. -/
theorem State.Pending.waits {b : Busy} (hs : s.Pending) (hw : s.SourceWaits) (hb : b.legal s) :
    State.Inv { s with busy := some b } := by
  refine (hs.inv.answer s.portR (some b)).inv fun b' hb' => ?_
  cases hb'
  refine ⟨hs.err, ?_, hs.portR, ?_⟩
  · by_contra heos
    obtain ⟨-, hsrc⟩ := hw
    obtain ⟨-, hend⟩ := hs.inv.eos_source (Bool.not_eq_false _ ▸ heos)
    cases hsrc.symm.trans hend
  · cases b <;> exact hb

theorem RunResult.inv {n : Nat} {result : Word64} {wait : Nat → Busy}
    (h : RunResult s n result wait t) (hs : s.Pending)
    (hlegal : ∀ left u, 1 ≤ left → left ≤ n → Advances s u → (wait left).legal u) : t.Inv := by
  cases h with
  | answered hu => exact ((hs.inv.advances (advanceBy_done_advances hu)).answer _ none).inv_of_busy_none rfl
  | waits hu =>
    obtain ⟨advances, hw, hlow, hhigh⟩ := advanceBy_wait_advances hu
    exact (hs.advances advances).waits hw (hlegal _ _ hlow hhigh advances)

theorem Advances.frv_eq (h : Advances s t) : t.frv = s.frv := by rw [h.frame]

/-- The skip after an emission, from its start or from where it waited (R96). -/
theorem RunResult.inv_of_skip {n : Nat} (h : RunResult s n 1 .demSkip t) (hs : s.Pending) (hf : s.frv = true)
    (hn : n ≤ Config.messageSamples) : t.Inv :=
  h.inv hs fun _ _ hlow hhigh advances => ⟨hlow, hhigh.trans hn, advances.frv_eq.trans hf⟩

theorem DemResult.inv (h : DemResult s t) (hs : s.Pending) : t.Inv := by
  cases h with
  | emitted hu hfull hd hpos hskip =>
    have hu := hs.advances hu
    obtain ⟨-, -, -, valid⟩ := demodStep_accept hd
    exact hskip.inv_of_skip ⟨hu.inv.emit valid, hu.err, hu.portR⟩ rfl le_rfl
  | exhausted hu => exact ((hs.inv.advances hu).noFrame.answer _ none).inv_of_busy_none rfl
  | waitsInStep hu hfull hw => exact (hs.advances hu).waits hw ⟨hfull, rfl⟩
  | waitsInFill hu hlen hw => exact (hs.advances hu).waits hw hlen

/-- Going on with a command that waits keeps the invariant (R165). -/
theorem resume_inv {b : Busy} (hs : s.Inv) (hb : s.busy = some b) (h : resume b s = .next t) : t.Inv := by
  obtain ⟨herr, -, hportR, hlegal⟩ := hs.busy_legal b hb
  have hc : 0 < s.capacity := Nat.lt_of_lt_of_le (by decide) hs.capacity_legal
  have pending : s.Pending := ⟨hs.idle, herr, hportR⟩
  cases b with
  | adv => exact (runAdv_result h).inv pending fun _ _ _ _ _ => trivial
  | advN left =>
    obtain ⟨-, hleft⟩ := hlegal
    exact (runAdvN_result h).inv pending fun _ _ hlow hhigh _ => ⟨hlow, hhigh.trans hleft⟩
  | demFill => exact (demFill_result hc h).inv pending
  | demStep prev =>
    obtain ⟨hfull, rfl⟩ := hlegal
    exact (demMove_result hc hfull h).inv pending
  | demSkip left =>
    obtain ⟨-, hleft, hf⟩ := hlegal
    exact (demSkip_result h).inv_of_skip pending hf hleft

/-! ### All rows -/

theorem Answers.inv {i : Instr} (h : Answers i s t) (hs : s.InvIdle) : t.Inv := by
  refine State.InvIdle.inv_of_busy_none ?_ h.busy_eq
  cases h with
  | ok | refused => exact hs.answer _ _
  | raised he e =>
    have code : (s.raise e).err.toNat ≤ 4 := by
      rw [State.raise_healthy he]
      exact e.code_le
    exact { hs with err_code := code, busy_legal := nofun }
  | crc | staged => exact { hs with busy_legal := nofun }
  | received hi hc ts => exact { hs with frame_valid := fun _ => hc, busy_legal := nofun }
  | dropped => exact { hs with frame_valid := nofun, busy_legal := nofun }

theorem Pulls.inv {i : Instr} (h : Pulls s i t) (hi : i.WellFormed) (hs : s.InvIdle) (hr : s.portR = none) :
    t.Inv := by
  cases h with
  | refused he => exact (hs.answer _ none).inv_of_busy_none rfl
  | winAdv he h => exact h.inv ⟨hs, he, hr⟩ fun _ _ _ _ _ => trivial
  | @winAdvn n _ he h =>
    have fits : n < 65536 := of_decide_eq_true hi
    exact h.inv ⟨hs, he, hr⟩ fun _ _ hlow hhigh _ => ⟨hlow, by omega⟩
  | demNext he hc h => exact h.inv ⟨hs, he, hr⟩

theorem exec_inv {i : Instr} (hi : i.WellFormed) (hs : s.InvIdle) (hr : s.portR = none) (h : exec i s = .next t) :
    t.Inv := by
  by_cases hp : pullsSamples i
  · exact (exec_pulls hp h).inv hi hs hr
  · exact (exec_answers hp h).inv hs

/-- An illegal word is answered as a row that pulls no samples is: it is refused or raises its fault. -/
theorem State.illegalWord_answers {i : Instr} (h : s.illegalWord = .next t) : Answers i s t := by
  obtain ⟨he, rfl⟩ | ⟨he, ht⟩ := State.command_next h
  · exact .refused he
  · cases ht
    exact .raised he .illegal

/-- A word with a next state is a well-formed row executed, or it is illegal. -/
theorem runWord_next {w : CommandWord} (h : runWord w s = .next t) :
    (∃ i, i.WellFormed ∧ exec i s = .next t) ∨ s.illegalWord = .next t := by
  cases hw : decodeCommand w with
  | ok i => exact .inl ⟨i, (encode_of_decodeCommand hw).2, (runWord_of_decode hw).symm.trans h⟩
  | error e => exact .inr ((runWord_error (State.fetch_error hw)).symm.trans h)

theorem State.Inv.accept (hs : s.Inv) (rest : List CommandWord) : (s.accept rest).InvIdle :=
  { hs with busy_legal := nofun }

theorem runWord_inv {w : CommandWord} (hs : s.InvIdle) (hr : s.portR = none) (h : runWord w s = .next t) : t.Inv := by
  obtain ⟨i, hi, h⟩ | h := runWord_next h
  · exact exec_inv hi hs hr h
  · exact (State.illegalWord_answers (i := .sysStat) h).inv hs

/-! ### Steps -/

/-- The four kinds of step: reset, going on with a command that waits, idling, and running the next word. -/
theorem step_cases (h : step s = .next t) :
    (s.rst = true ∧ t = s.inReset) ∨
    (s.rst = false ∧ ∃ b, s.busy = some b ∧ resume b s = .next t) ∨
    (s.Ready ∧ s.portC = [] ∧ t = s) ∨
    (s.Ready ∧ ∃ w rest, s.portC = w :: rest ∧ runWord w (s.accept rest) = .next t) := by
  by_cases hrst : s.rst = true
  · cases (step_in_reset hrst).symm.trans h
    exact .inl ⟨hrst, rfl⟩
  rw [Bool.not_eq_true] at hrst
  cases hb : s.busy with
  | some b =>
    simp only [step, hrst, hb] at h
    exact .inr (.inl ⟨hrst, b, rfl, h⟩)
  | none =>
    cases hw : s.portC with
    | nil =>
      cases (step_idle ⟨hrst, hb⟩ hw).symm.trans h
      exact .inr (.inr (.inl ⟨⟨hrst, hb⟩, rfl, rfl⟩))
    | cons w rest =>
      exact .inr (.inr (.inr ⟨⟨hrst, hb⟩, w, rest, rfl, (step_of_ready ⟨hrst, hb⟩ hw).symm.trans h⟩))

/-- The reset state of a block with a legal W meets the invariant (R167). -/
theorem State.inReset_inv (hw : Config.minCapacity ≤ s.capacity) : s.inReset.Inv where
  capacity_legal := hw
  len_le_capacity := Nat.zero_le _
  len_le_pos := Nat.zero_le _
  pos_in_domain := (by decide : (0 : Word64).toNat < Config.positionLimit)
  samples_fit := nofun
  eos_source := nofun
  eos_not_full := nofun
  frame_valid := nofun
  err_code := (by decide : (0 : BitVec 4).toNat ≤ 4)
  busy_legal := nofun

/-- Settles O14: each kind of step leaves a state with the invariant. -/
theorem stepKeepsInvariant : Obligations.StepKeepsInvariant := by
  intro s t hs h
  obtain ⟨-, rfl⟩ | ⟨-, b, hb, h⟩ | ⟨-, -, rfl⟩ | ⟨-, w, rest, -, h⟩ := step_cases h
  · exact State.inReset_inv hs.capacity_legal
  · exact resume_inv hs hb h
  · exact hs
  · exact runWord_inv (hs.accept rest) rfl h

/-! ### The environment and runs -/

/-- Settles O15: the reset state is the reset of itself. -/
theorem resetHasInvariant : Obligations.ResetHasInvariant := State.inReset_inv (s := State.reset) (by decide)

/-- After the end mark the source delivers nothing, so EOS = 1 stays in order. -/
theorem State.Inv.deliver (hs : s.Inv) (samples : List Nat) : (s.deliver samples).Inv := by
  unfold State.deliver
  split
  next => exact hs
  next hsrc =>
    exact {
      hs with
      eos_source := fun he => absurd (hs.eos_source he).2 hsrc
      busy_legal := fun b hb => by cases b <;> exact hs.busy_legal _ hb }

theorem State.Inv.releaseReset (hs : s.Inv) : s.releaseReset.Inv := by
  unfold State.releaseReset
  split
  next => exact { State.inReset_inv hs.capacity_legal with busy_legal := nofun }
  next => exact hs

/-- Settles O16: the words, the end mark and RST are no part of the invariant, apart from the end mark after EOS. -/
theorem environmentKeepsInvariant : Obligations.EnvironmentKeepsInvariant := by
  refine fun s hs => ⟨fun w => ?present, hs.deliver, ?endStream, ?assertReset, hs.releaseReset⟩
  case present | assertReset =>
    exact { hs with busy_legal := fun b hb => by cases b <;> exact hs.busy_legal _ hb }
  case endStream =>
    exact {
      hs with
      eos_source := fun he => ⟨(hs.eos_source he).1, rfl⟩
      busy_legal := fun b hb => by cases b <;> exact hs.busy_legal _ hb }

/-- Settles O17: by induction along the run. -/
theorem runsKeepInvariant : Obligations.RunsKeepInvariant := by
  intro s t hs h
  induction h with
  | refl => exact hs
  | step _ hstep ih => exact stepKeepsInvariant _ _ ih hstep
  | present w _ ih =>
    obtain ⟨present, -⟩ := environmentKeepsInvariant _ ih
    exact present w
  | deliver samples _ ih => exact ih.deliver samples
  | endStream _ ih =>
    obtain ⟨-, -, endStream, -⟩ := environmentKeepsInvariant _ ih
    exact endStream
  | assertReset _ ih =>
    obtain ⟨-, -, -, assertReset, -⟩ := environmentKeepsInvariant _ ih
    exact assertReset
  | releaseReset _ ih => exact ih.releaseReset

end

end Sys2Proof.Machine
end

section
/-! What a step answers, changes and leaves unchanged (30_encoding.md R47; 10_state.md R10 to R19; 60_exceptions.md
R165). -/

open Sys2Proof.Statements

namespace Sys2Proof.Machine

section
variable {i : Instr} {s t : State} {P : State → Prop}

/-! ### Responses (R47) -/

/-- The STATUS codes 5 to 14 are never produced. -/
theorem Status.code_legal (st : Status) : st.code.toNat ≤ 4 ∨ st.code = 15 := by
  cases st <;> decide

/-- The command that was taken has been answered, and RESULT is 0 with every status but OK. -/
def State.Answered (s : State) : Prop :=
  ∃ r, s.portR = some r ∧ s.busy = none ∧ (r.status ≠ .ok → r.result = 0)

theorem State.answered_ok (s : State) (result : Word64) : (s.respond .ok result).Answered :=
  ⟨_, rfl, rfl, fun h => absurd rfl h⟩

theorem State.answered_zero (s : State) (st : Status) : (s.respond st 0).Answered :=
  ⟨_, rfl, rfl, fun _ => rfl⟩

/-- A command waits: port S has no item for it (R33). -/
def State.Waiting (s : State) : Prop := s.SourceWaits ∧ ∃ b, s.busy = some b

/-- A command taken in `s` ends answered, or it waits and has put no response on port R. -/
def State.Ends (s t : State) : Prop := t.Answered ∨ (t.Waiting ∧ t.portR = s.portR)

theorem Answers.ends (h : Answers i s t) : s.Ends t := by
  refine .inl ?_
  cases h with
  | refused | raised => exact State.answered_zero _ _
  | _ => exact State.answered_ok _ _

theorem Advances.portR_eq (h : Advances s t) : t.portR = s.portR := by rw [h.frame]

theorem RunResult.ends {n : Nat} {result : Word64} {wait : Nat → Busy} (h : RunResult s n result wait t) :
    s.Ends t := by
  cases h with
  | answered => exact .inl (State.answered_ok _ _)
  | waits hu =>
    obtain ⟨advances, hw, -, -⟩ := advanceBy_wait_advances hu
    exact .inr ⟨⟨hw, _, rfl⟩, advances.portR_eq⟩

theorem DemResult.ends (h : DemResult s t) : s.Ends t := by
  cases h with
  | emitted hu _ _ _ hskip =>
    refine hskip.ends.imp_right fun ⟨hw, hr⟩ => ⟨hw, hr.trans ?_⟩
    exact hu.portR_eq
  | exhausted => exact .inl (State.answered_ok _ _)
  | waitsInStep hu _ hw | waitsInFill hu _ hw => exact .inr ⟨⟨hw, _, rfl⟩, hu.portR_eq⟩

theorem exec_ends (h : exec i s = .next t) : s.Ends t := by
  by_cases hp : pullsSamples i
  · cases exec_pulls hp h with
    | refused => exact .inl (State.answered_zero _ _)
    | winAdv _ h | winAdvn _ h | demNext _ _ h => exact h.ends
  · exact (exec_answers hp h).ends

theorem runWord_ends {w : CommandWord} (h : runWord w s = .next t) : s.Ends t := by
  obtain ⟨i, -, h⟩ | h := runWord_next h
  · exact exec_ends h
  · exact (State.illegalWord_answers (i := .sysStat) h).ends

/-! ### What a row leaves unchanged -/

/-- The parameters, RST, port C and the end mark are as they were. -/
def State.SameSetting (s t : State) : Prop :=
  t.poly = s.poly ∧ t.capacity = s.capacity ∧ t.sampleWidth = s.sampleWidth ∧ t.rst = s.rst ∧ t.portC = s.portC ∧
    t.srcEnded = s.srcEnded

/-- The window, POS, EOS and port S are as they were. -/
def State.SameWindow (s t : State) : Prop :=
  t.wbuf = s.wbuf ∧ t.pos = s.pos ∧ t.eos = s.eos ∧ t.portS = s.portS

/-- FR and FRV are as they were. -/
def State.SameFrame (s t : State) : Prop := t.frTs = s.frTs ∧ t.frB = s.frB ∧ t.frv = s.frv

/-- STG and SCNT are as they were. -/
def State.SameStaging (s t : State) : Prop := t.stg = s.stg ∧ t.scnt = s.scnt

theorem keptByDemodulator_sameSetting (s : State) : KeptByDemodulator s.SameSetting where
  advance _ _ hs h := by rw [advance_frame h]; exact hs
  answer _ _ _ hs := hs
  frame _ _ _ _ hs := hs

theorem keptByDemodulator_sameStaging (s : State) : KeptByDemodulator s.SameStaging where
  advance _ _ hs h := by rw [advance_frame h]; exact hs
  answer _ _ _ hs := hs
  frame _ _ _ _ hs := hs

theorem keptByAdvances_sameFrame (s : State) : KeptByAdvances s.SameFrame where
  advance _ _ hs h := by rw [advance_frame h]; exact hs
  answer _ _ _ hs := hs

theorem Answers.sameSetting (h : Answers i s t) : s.SameSetting t := by
  cases h <;> exact ⟨rfl, rfl, rfl, rfl, rfl, rfl⟩

theorem Answers.sameWindow (h : Answers i s t) : s.SameWindow t := by
  cases h <;> exact ⟨rfl, rfl, rfl, rfl⟩

theorem exec_sameSetting (h : exec i s = .next t) : s.SameSetting t := by
  by_cases hp : pullsSamples i
  · have kept := keptByDemodulator_sameSetting s
    exact exec_keeps_of_pulls kept.toKeptByAdvances (fun _ => kept) hp ⟨rfl, rfl, rfl, rfl, rfl, rfl⟩ h
  · exact (exec_answers hp h).sameSetting

/-- FR is written by the rows that take a frame in. -/
theorem exec_sameFrame (hdem : i ≠ .demNext) (hchk : i ≠ .frmChk) (hrow : ¬ isFrameRow i) (h : exec i s = .next t) :
    s.SameFrame t := by
  by_cases hp : pullsSamples i
  · exact exec_keeps_of_pulls (keptByAdvances_sameFrame s) (fun hi => absurd hi hdem) hp ⟨rfl, rfl, rfl⟩ h
  · cases exec_answers hp h with
    | received hi | dropped hi => exact absurd hi (not_or.mpr ⟨hchk, hrow⟩)
    | _ => exact ⟨rfl, rfl, rfl⟩

/-- STG is written by FRM.PUTB, and SCNT also by the rows that consume a record. -/
theorem exec_sameStaging (hput : ∀ x, i ≠ .frmPutb x) (hchk : i ≠ .frmChk) (hrow : ¬ isFrameRow i)
    (h : exec i s = .next t) : s.SameStaging t := by
  by_cases hp : pullsSamples i
  · have kept := keptByDemodulator_sameStaging s
    exact exec_keeps_of_pulls kept.toKeptByAdvances (fun _ => kept) hp ⟨rfl, rfl⟩ h
  · cases exec_answers hp h with
    | received hi | dropped hi => exact absurd hi (not_or.mpr ⟨hchk, hrow⟩)
    | staged hi => exact absurd hi (hput _)
    | _ => exact ⟨rfl, rfl⟩

/-- Settles O21: a row that pulls no samples writes what its answer says, the others move the window and, for DEM.NEXT,
write FR. -/
theorem commandsTouchOnlyTheirUnit : Obligations.CommandsTouchOnlyTheirUnit := by
  refine fun i s t h => ⟨exec_sameSetting h, fun ⟨hclr, hbyte⟩ => exec_crcr_of_not_write hclr hbyte h,
    fun hp => (exec_answers hp h).sameWindow, fun ⟨hdem, hchk, hrow⟩ => exec_sameFrame hdem hchk hrow h,
    fun ⟨hput, hchk, hrow⟩ => exec_sameStaging hput hchk hrow h⟩

theorem runWord_sameSetting {w : CommandWord} (h : runWord w s = .next t) : s.SameSetting t := by
  obtain ⟨i, -, h⟩ | h := runWord_next h
  · exact exec_sameSetting h
  · exact (State.illegalWord_answers (i := .sysStat) h).sameSetting

/-- Settles O13: the word that was taken ends answered or waits, and nothing else is taken off port C. -/
theorem everyCommandIsAnsweredOnce : Obligations.EveryCommandIsAnsweredOnce := by
  intro s t w rest hs hw h
  rw [step_of_ready hs hw] at h
  obtain ⟨-, -, -, -, port, -⟩ := runWord_sameSetting h
  refine ⟨port, ?_⟩
  obtain ⟨r, hr, hb, hzero⟩ | ⟨⟨-, hb⟩, hr⟩ := runWord_ends h
  · exact .inl ⟨r, hr, hb, hzero, r.status.code_legal⟩
  · exact .inr ⟨hr, hb⟩

/-! ### The window along a step -/

/-- A row or an illegal word keeps what the demodulator keeps, if it is about W and the window only. -/
theorem runWord_keeps_of_window {w : CommandWord} (hP : KeptByDemodulator P)
    (hsame : ∀ s t : State, t.capacity = s.capacity → s.SameWindow t → P s → P t) (hs : P s)
    (h : runWord w s = .next t) : P t := by
  have answers {i : Instr} (h : Answers i s t) : P t := by
    obtain ⟨-, capacity, -⟩ := h.sameSetting
    exact hsame s t capacity h.sameWindow hs
  obtain ⟨i, -, h⟩ | h := runWord_next h
  · by_cases hp : pullsSamples i
    · exact exec_keeps_of_pulls hP.toKeptByAdvances (fun _ => hP) hp hs h
    · exact answers (exec_answers hp h)
  · exact answers (State.illegalWord_answers (i := .sysStat) h)

theorem step_keeps_of_window (hP : KeptByDemodulator P)
    (hsame : ∀ s t : State, t.capacity = s.capacity → s.SameWindow t → P s → P t) (hrst : s.rst = false) (hs : P s)
    (h : step s = .next t) : P t := by
  obtain ⟨hreset, -⟩ | ⟨-, b, -, h⟩ | ⟨-, -, rfl⟩ | ⟨-, w, rest, -, h⟩ := step_cases h
  · cases hreset.symm.trans hrst
  · exact resume_keeps hP hs h
  · exact hs
  · exact runWord_keeps_of_window hP hsame (hsame s (s.accept rest) rfl ⟨rfl, rfl, rfl, rfl⟩ hs) h

/-- `t` has taken some samples off the head of port S since `s`, and POS counts them (R14). -/
def State.Consumed (s t : State) : Prop :=
  ∃ taken : List Nat, s.portS = taken ++ t.portS ∧ t.pos.toNat = s.pos.toNat + taken.length

/-- `Advance` takes one sample or none; POS does not wrap inside its domain. -/
theorem keptByDemodulator_consumed (s : State) : KeptByDemodulator s.Consumed where
  advance t u ht ha := by
    obtain ⟨taken, hport, hpos⟩ := ht
    obtain ⟨v, rest, hs, -, hp, rfl⟩ | ⟨hs, -, rfl⟩ := advance_done ha
    · have pos : (t.pos + 1).toNat = t.pos.toNat + 1 := State.toNat_pos_consume (s := t) (n := 1) hp
      refine ⟨taken ++ [v], by simp [hport, hs], ?_⟩
      show (t.pos + 1).toNat = _
      rw [pos, hpos, List.length_append, List.length_singleton, Nat.add_assoc]
    · exact ⟨taken, hport, hpos⟩
  answer _ _ _ ht := ht
  frame _ _ _ _ ht := ht

/-- Settles O37: it holds of each `Advance`, and nothing else moves POS or port S. -/
theorem posCountsConsumedSamples : Obligations.PosCountsConsumedSamples := by
  refine ⟨rfl, fun s t hrst h => ?_⟩
  refine step_keeps_of_window (keptByDemodulator_consumed s) ?_ hrst ⟨[], rfl, rfl⟩ h
  rintro t u - ⟨-, hpos, -, hport⟩ ⟨taken, hs, hcount⟩
  exact ⟨taken, hport ▸ hs, hpos ▸ hcount⟩

/-- After the end of the stream the window and POS are those of `s`, and port S stays empty (R15). -/
structure State.Ended (s t : State) : Prop where
  eos : t.eos = true
  portS : t.portS = []
  wbuf : t.wbuf = s.wbuf
  pos : t.pos = s.pos
  capacity : t.capacity = s.capacity

/-- `Advance` finds the end mark again, and the window that is not full loses nothing. -/
theorem keptByDemodulator_ended (hl : s.len < s.capacity) : KeptByDemodulator s.Ended where
  advance t u ht ha := by
    have retained : t.retained = t.wbuf := by
      refine State.retained_of_not_full ?_
      rw [State.len, ht.wbuf, ht.capacity]
      exact hl
    obtain ⟨v, rest, hport, -⟩ | ⟨-, -, rfl⟩ := advance_done ha
    · cases ht.portS.symm.trans hport
    · exact { ht with eos := rfl, wbuf := retained.trans ht.wbuf }
  answer _ _ _ ht := { ht with }
  frame _ _ _ _ ht := { ht with }

/-- Settles O38: the source has ended and the window is not full, by the invariant, and every `Advance` leaves it so. -/
theorem eosIsStickyAndFullStaysLow : Obligations.EosIsStickyAndFullStaysLow := by
  intro s t hs hrst heos h
  have hl : s.len < s.capacity := hs.eos_not_full heos
  obtain ⟨hport, -⟩ := hs.eos_source heos
  have ended : s.Ended t := by
    refine step_keeps_of_window (keptByDemodulator_ended hl) ?_ hrst ⟨heos, hport, rfl, rfl, rfl⟩ h
    rintro t u hc ⟨hw, hpos, he, hp⟩ ht
    exact ⟨he.trans ht.eos, hp.trans ht.portS, hw.trans ht.wbuf, hpos.trans ht.pos, hc.trans ht.capacity⟩
  refine ⟨ended.eos, ended.wbuf, ended.pos, beq_false_of_ne ?_⟩
  rw [State.len, ended.wbuf, ended.capacity]
  exact hl.ne

end

/-! ### The CRC commands among other commands (R72) -/

section
variable {i : Instr} {is : List Instr} {s t : State}

/-- Without CRC.CLR a command folds the bytes it feeds, one if it is CRC.BYTE and none else. -/
theorem exec_crcr_eq_foldl (hclr : i ≠ .crcClr) (he : s.err = 0) (h : exec i s = .next t) :
    t.crcr = (crcBytesOf [i]).foldl (fold s.poly) s.crcr := by
  obtain ⟨-, writes⟩ := onlyCrcCommandsWriteCrcr
  obtain ⟨-, hbyte, -, hkept⟩ := writes i s t h
  by_cases hx : ∃ x, i = .crcByte x
  · obtain ⟨x, rfl⟩ := hx
    exact hbyte x rfl he
  · have nothing : crcBytesOf [i] = [] := by
      cases i with
      | crcByte x => exact absurd ⟨x, rfl⟩ hx
      | _ => rfl
    rw [nothing]
    exact hkept (.inr ⟨hclr, not_exists.mp hx⟩)

theorem crcBytesOf_cons (i : Instr) (is : List Instr) : crcBytesOf (i :: is) = crcBytesOf [i] ++ crcBytesOf is := by
  cases i <;> rfl

theorem execAll_crcr (hclr : ∀ i ∈ is, i ≠ .crcClr) (h : execAll is s = .next t) (ht : t.err = 0) :
    t.crcr = (crcBytesOf is).foldl (fold s.poly) s.crcr := by
  induction is generalizing s with
  | nil => cases h; rfl
  | cons i is ih =>
    obtain ⟨u, hi, hrest⟩ := execAll_cons h
    obtain ⟨hclr, hclrs⟩ := List.forall_mem_cons.mp hclr
    obtain ⟨poly, -⟩ := exec_sameSetting hi
    rw [ih hclrs hrest, poly, crcBytesOf_cons, List.foldl_append,
      exec_crcr_eq_foldl hclr (exec_err_start hi (execAll_err_start hrest ht)) hi]

/-- A sequence with a next state has run its first part. -/
theorem execAll_append {js : List Instr} (h : execAll (is ++ js) s = .next t) :
    ∃ u, execAll is s = .next u ∧ execAll js u = .next t := by
  induction is generalizing s with
  | nil => exact ⟨s, rfl, h⟩
  | cons i is ih =>
    obtain ⟨v, hi, hrest⟩ := execAll_cons h
    obtain ⟨u, hu, hjs⟩ := ih hrest
    exact ⟨u, (execAll_cons_next hi).trans hu, hjs⟩

end

/-- Settles O30: ERR is 0 all along, CRC.CLR sets CRCR to 0, the commands fold their bytes, and CRC.RD answers. -/
theorem crcSequenceComputesCrc24 : Obligations.CrcSequenceComputesCrc24 := by
  intro cmds s t hclr h ht
  obtain ⟨u, hu, h⟩ := execAll_cons h
  obtain ⟨v, hv, h⟩ := execAll_append h
  obtain ⟨t', hread, hlast⟩ := execAll_cons h
  cases hlast
  have hv0 : v.err = 0 := exec_err_start hread ht
  have hs0 : s.err = 0 := exec_err_start hu (execAll_err_start hv hv0)
  have crcr := execAll_crcr hclr hv hv0
  cases (State.command_healthy hs0 _).symm.trans hu
  cases (State.command_healthy hv0 _).symm.trans hread
  show some _ = _
  rw [crcr]
  rfl

end Sys2Proof.Machine
end

section
/-! Inside the domain of the spec no step stops, and where the model stops outside it (00_scope.md R8; 10_state.md R22;
93_implementation_defined.md U13). -/

open Sys2Proof.Statements

namespace Sys2Proof.Machine

/-! ### Runs of `Advance` inside the domain -/

/-- A run that neither faults nor is refused. -/
def Progress.Goes (p : Progress) : Prop := (∃ t, p = .done t) ∨ ∃ left t, p = .wait left t

/-- An outcome that is a next state. -/
def HasNext (o : Outcome) : Prop := ∃ t, o = .next t

section
variable {s t : State} {n : Nat}

/-- A sample taken is one sample less to take, so POS ends in the domain as before. -/
theorem State.InDomain.advance (hs : s.InDomain) (ha : advance s = .done t) : t.InDomain := by
  obtain ⟨hv, hp⟩ := hs
  obtain ⟨v, rest, hport, -, hpos, rfl⟩ | ⟨hport, -, rfl⟩ := advance_done ha
  · rw [hport] at hv hp
    have pos : (s.pos + 1).toNat = s.pos.toNat + 1 := State.toNat_pos_consume (s := s) (n := 1) hpos
    refine ⟨fun x hx => hv x (List.mem_cons_of_mem _ hx), ?_⟩
    show (s.pos + 1).toNat + rest.length < _
    rw [List.length_cons] at hp
    omega
  · exact ⟨hv, hp⟩

theorem State.InDomain.advances (hs : s.InDomain) (h : Advances s t) : t.InDomain :=
  h.keeps (P := State.InDomain) (fun _ _ => State.InDomain.advance) hs

theorem State.InDomain.pos_lt (hs : s.InDomain) : s.pos.toNat < Config.positionLimit :=
  (Nat.le_add_right _ _).trans_lt hs.2

theorem advance_goes (hs : s.InDomain) : (advance s).Goes := by
  obtain ⟨hv, hp⟩ := hs
  cases ha : advance s with
  | done t => exact .inl ⟨t, rfl⟩
  | wait left t => exact .inr ⟨left, t, rfl⟩
  | fault f =>
    obtain ⟨-, v, rest, hport, hwide⟩ := advance_fault ha
    exact absurd (hv v (by simp [hport])) hwide.not_gt
  | refused r =>
    obtain ⟨-, hport, hpos⟩ := advance_refused ha
    have one : 0 < s.portS.length := List.length_pos_of_ne_nil hport
    omega

theorem advanceBy_goes (n : Nat) (hs : s.InDomain) : (advanceBy n s).Goes := by
  induction n generalizing s with
  | zero => exact .inl ⟨s, rfl⟩
  | succ n ih =>
    obtain ⟨t, ha⟩ | ⟨left, t, ha⟩ := advance_goes hs
    · rw [advanceBy_succ_done ha]
      exact ih (hs.advance ha)
    · exact .inr ⟨n + 1, t, by simp [advanceBy, ha]⟩

theorem fill_goes (n : Nat) (hs : s.InDomain) : (fill n s).Goes := by
  induction n generalizing s with
  | zero => exact .inl ⟨s, rfl⟩
  | succ n ih =>
    by_cases heos : s.eos = true
    · exact .inl ⟨s, fill_ended heos⟩
    rw [Bool.not_eq_true] at heos
    obtain ⟨t, ha⟩ | ⟨left, t, ha⟩ := advance_goes hs
    · rw [fill_succ_done heos ha]
      exact ih (hs.advance ha)
    · exact .inr ⟨n + 1, t, fill_succ_wait heos ha⟩

theorem Progress.resolve_hasNext {p : Progress} {whenDone : State → Outcome} {whenWaiting : Nat → State → Outcome}
    (hp : p.Goes) (hdone : ∀ t, p = .done t → HasNext (whenDone t)) (hwait : ∀ left t, HasNext (whenWaiting left t)) :
    HasNext (p.resolve whenDone whenWaiting) := by
  obtain ⟨t, rfl⟩ | ⟨left, t, rfl⟩ := hp
  · exact hdone t rfl
  · exact hwait left t

/-! ### The commands -/

theorem runAdv_hasNext (hs : s.InDomain) : HasNext (runAdv s) :=
  Progress.resolve_hasNext (advance_goes hs) (fun _ _ => ⟨_, rfl⟩) fun _ _ => ⟨_, rfl⟩

theorem runAdvN_hasNext (n : Nat) (hs : s.InDomain) : HasNext (runAdvN n s) :=
  Progress.resolve_hasNext (advanceBy_goes n hs) (fun _ _ => ⟨_, rfl⟩) fun _ _ => ⟨_, rfl⟩

theorem demSkip_hasNext (n : Nat) (hs : s.InDomain) : HasNext (demSkip n s) :=
  Progress.resolve_hasNext (advanceBy_goes n hs) (fun _ _ => ⟨_, rfl⟩) fun _ _ => ⟨_, rfl⟩

theorem demEmit_hasNext (c : Frame) (hs : s.InDomain) : HasNext (demEmit c s) := by
  rw [demEmit, if_neg hs.pos_lt.not_ge]
  exact demSkip_hasNext _ hs

/-- Along the turns of the scan every `Advance` goes on. -/
theorem demScan_hasNext (hc : 0 < s.capacity) (prev : Nat) : s.InDomain → HasNext (demScan prev s) := by
  refine scan_induction (motive := fun prev s => s.InDomain → HasNext (demScan prev s)) ?exhausted ?accepted ?rejected
    prev s hc
  case exhausted => exact fun prev s hnot _ => ⟨_, demScan_not_full hnot⟩
  case accepted =>
    intro prev s c hl hd hs
    rw [demScan_accept hl hd]
    exact demEmit_hasNext c hs
  case rejected =>
    intro prev s hc hl hreject onward hs
    rw [demScan_reject hc hl hreject]
    exact Progress.resolve_hasNext (advance_goes hs) (fun u ha => onward u ha (hs.advance ha)) fun _ _ => ⟨_, rfl⟩

theorem demMove_hasNext (hc : 0 < s.capacity) (prev : Nat) (hs : s.InDomain) : HasNext (demMove prev s) := by
  refine Progress.resolve_hasNext (advance_goes hs) (fun u ha => ?_) fun _ _ => ⟨_, rfl⟩
  exact demScan_hasNext ((Advances.refl.next ha).capacity_eq ▸ hc) prev (hs.advance ha)

theorem demFill_hasNext (hc : 0 < s.capacity) (hs : s.InDomain) : HasNext (demFill s) := by
  refine Progress.resolve_hasNext (fill_goes _ hs) (fun u hu => ?_) fun _ _ => ⟨_, rfl⟩
  have advances := fill_done_advances hu
  exact demScan_hasNext (advances.capacity_eq ▸ hc) 0 (hs.advances advances)

theorem resume_hasNext (hc : 0 < s.capacity) (hs : s.InDomain) (b : Busy) : HasNext (resume b s) := by
  cases b with
  | adv => exact runAdv_hasNext hs
  | advN left => exact runAdvN_hasNext left hs
  | demFill => exact demFill_hasNext hc hs
  | demStep prev => exact demMove_hasNext hc prev hs
  | demSkip left => exact demSkip_hasNext left hs

theorem State.command_hasNext {k : Outcome} (h : s.err = 0 → HasNext k) : HasNext (s.command k) := by
  by_cases he : s.err = 0
  · rw [State.command_healthy he]
    exact h he
  · exact ⟨_, State.command_faulted he k⟩

theorem exec_demNext_hasNext (hw : Config.minCapacity ≤ s.capacity) (hs : s.InDomain) : HasNext (exec .demNext s) := by
  refine State.command_hasNext fun _ => ?_
  rw [if_neg hw.not_gt]
  exact demFill_hasNext (Nat.lt_of_lt_of_le (by decide) hw) hs

theorem exec_hasNext (i : Instr) (hw : Config.minCapacity ≤ s.capacity) (hs : s.InDomain) : HasNext (exec i s) := by
  by_cases hp : pullsSamples i
  · cases i with
    | winAdv => exact State.command_hasNext fun _ => runAdv_hasNext hs
    | winAdvn n => exact State.command_hasNext fun _ => runAdvN_hasNext n hs
    | demNext => exact exec_demNext_hasNext hw hs
    | _ => exact hp.elim
  · obtain ⟨t, ht, -⟩ := exec_nextWith_answers hp s
    exact ⟨t, ht⟩

theorem runWord_hasNext (w : CommandWord) (hw : Config.minCapacity ≤ s.capacity) (hs : s.InDomain) :
    HasNext (runWord w s) := by
  cases hdecode : decodeCommand w with
  | ok i =>
    rw [runWord_of_decode hdecode]
    exact exec_hasNext i hw hs
  | error e =>
    rw [runWord_error (State.fetch_error hdecode)]
    exact State.command_hasNext fun _ => ⟨_, rfl⟩

end

/-- Settles O18: reset and idling always have a next state, a waiting command and a word have one inside the domain. -/
theorem noStopInsideTheDomain : Obligations.NoStopInsideTheDomain := by
  intro s hs hd
  have hw : Config.minCapacity ≤ s.capacity := hs.capacity_legal
  by_cases hrst : s.rst = true
  · exact ⟨_, step_in_reset hrst⟩
  rw [Bool.not_eq_true] at hrst
  cases hb : s.busy with
  | some b =>
    obtain ⟨t, ht⟩ := resume_hasNext (Nat.lt_of_lt_of_le (by decide) hw) hd b
    exact ⟨t, by simp [step, hrst, hb, ht]⟩
  | none =>
    cases hport : s.portC with
    | nil => exact ⟨s, step_idle ⟨hrst, hb⟩ hport⟩
    | cons w rest =>
      rw [step_of_ready ⟨hrst, hb⟩ hport]
      exact runWord_hasNext (s := s.accept rest) w hw hd

/-- Settles O19: the step has a next state, and the command does not wait, since the source has ended. -/
theorem wholeStreamCommandsAreAnswered : Obligations.WholeStreamCommandsAreAnswered := by
  intro s w rest hs hd hwhole hready hport
  obtain ⟨t, ht⟩ := noStopInsideTheDomain s hs hd
  have hrun := (step_of_ready hready hport).symm.trans ht
  obtain ⟨-, -, -, -, hrest, hsrc⟩ := runWord_sameSetting hrun
  obtain ⟨r, hr, hb, -⟩ | ⟨⟨⟨-, hnotEnded⟩, -⟩, -⟩ := runWord_ends hrun
  · exact ⟨t, r, ht, hr, hb, hrest⟩
  · cases hnotEnded.symm.trans (hsrc.trans hwhole)

/-! ### Outside the domain -/

section
variable {s : State} {v : Nat} {rest : List Nat}

theorem advance_too_wide (hs : s.portS = v :: rest) (hv : 2 ^ s.sampleWidth ≤ v) :
    advance s = .fault .sampleTooWide := by
  simp [advance, hs, hv]

theorem advance_past_limit (hs : s.portS = v :: rest) (hv : v < 2 ^ s.sampleWidth)
    (hp : Config.positionLimit ≤ s.pos.toNat + 1) : advance s = .refused .positionOutOfDomain := by
  simp [advance, hs, hv.not_ge, hp]

end

/-- Settles O20: the stop of `Advance` is the stop of WIN.ADV, and DEM.NEXT tests W first and POS when it emits. -/
theorem stopsOutsideTheDomain : Obligations.StopsOutsideTheDomain := by
  refine ⟨fun s v rest he hs hv => ?wide, fun s v rest he hs hv hp => ?limit, fun s c he hw hl hd hp => ?emission,
    fun s he hw => (State.command_healthy he _).trans (if_pos hw)⟩
  case wide =>
    refine (State.command_healthy he _).trans ?_
    rw [runAdv, advance_too_wide hs hv]
    rfl
  case limit =>
    refine (State.command_healthy he _).trans ?_
    rw [runAdv, advance_past_limit hs hv hp]
    rfl
  case emission =>
    rw [exec_demNext_of_full he hw hl, demScan_accept hl hd]
    exact if_pos hp

end Sys2Proof.Machine
end

section
/-! Frames and records as bytes: the fields of a frame row, the staged record of FRM.REC, and the header fields by the
primitives (30_encoding.md R56, R61; 44_frame_parser.md R103 to R116; 47_bit_byte_primitives.md R142 to R149). -/

open Sys2Proof.Statements

namespace Sys2Proof.Machine

/-! ### Packing consecutive bytes (R146) -/

theorem packBytes_snoc {n : Nat} {bytes : List Byte} {v : BitVec n} (h : packBytes bytes = v.setWidth 64)
    (hn : n + 8 ≤ 64) (b : Byte) : packBytes (bytes ++ [b]) = (v ++ b).setWidth 64 := by
  rw [← push_byte v b hn, ← h]
  simp [packBytes]

/-- Up to eight consecutive bytes of a value, from the bit below `top` down, packed again are the field they fill. -/
theorem packBytes_extract {w : Nat} (x : BitVec w) {top m : Nat} (hm : m ≤ 8) (htop : 8 * m ≤ top) :
    packBytes ((List.range m).map fun j => x.extractLsb' (top - 8 * (j + 1)) 8)
      = (x.extractLsb' (top - 8 * m) (8 * m)).setWidth 64 := by
  induction m with
  | zero => simp [packBytes]
  | succ m ih =>
    rw [List.range_succ, List.map_append, List.map_singleton, packBytes_snoc (ih (by omega) (by omega)) (by omega),
      BitVec.extractLsb'_append_extractLsb'_eq_extractLsb' (by omega)]
    rfl

/-- The timestamp of a record is its first eight bytes, big-endian (R36). -/
theorem packBytes_stagedBytes (r : Record) : packBytes ((List.range 8).map (stagedByte r)) = recordTimestamp r := by
  have field := packBytes_extract r (top := 176) (m := 8) le_rfl (by decide)
  exact field.trans (BitVec.setWidth_eq _)

/-! ### The fields of a frame row (R56) -/

section
variable (tc : BitVec 5) (c : BitVec 3) (a : BitVec 24) (m : BitVec 51) (p : BitVec 24)

/-- `Payload()` is the type code and the 51 bits below it (R105, R106). -/
theorem payload_eq_append (f : Frame) : payload f = frameTypeCode f ++ frameRest f := by
  have fields : f.extractLsb' 75 5 ++ f.extractLsb' 24 51 = f.extractLsb' 24 56 :=
    BitVec.extractLsb'_append_extractLsb'_eq_extractLsb' rfl
  exact fields.symm

theorem zext64_payload_rowFrame :
    zext64 (payload (rowFrame tc c a m p)) = (tc.setWidth 64 <<< 51) ||| m.setWidth 64 := by
  rw [payload_eq_append, rowFrame, frameTypeCode_frameOfFields, frameRest_frameOfFields, zext64]
  ext i hi
  simp only [BitVec.getElem_setWidth, BitVec.getLsbD_append, BitVec.getElem_or, BitVec.getElem_shiftLeft]
  by_cases h : i < 51
  · simp [h]
  · simp [h, BitVec.getLsbD_of_ge m i (not_lt.mp h)]

/-- A row's frame has downlink format 17, so its residue decides (R101). -/
theorem validate_rowFrame (poly : Word24) :
    validate poly (rowFrame tc c a m p) = true ↔ crc24 poly (frameBytes (rowFrame tc c a m p)) = 0 := by
  rw [validate, Bool.and_eq_true, decide_eq_true_iff, decide_eq_true_iff]
  exact and_iff_right (frameFormat_frameOfFields _ c a tc m p)

end

/-- Settles O52: a row consumes the staged record with the row's frame, whose residue decides; the accessors then read
the fields the row was put together from. -/
theorem frameRowsAreReceivedAndDispatched : Obligations.FrameRowsAreReceivedAndDispatched := by
  intro tc c a m p s he hfull
  have consumed := (exec_frameRow tc c a m p s).trans (State.checkFrame_full he hfull)
  refine ⟨fun hresidue => ?received, fun hresidue => ?dropped⟩
  case received =>
    have valid := (validate_rowFrame tc c a m p s.poly).mpr hresidue
    rw [State.receiveFrame_valid valid] at consumed
    refine ⟨_, consumed, rfl, ?_⟩
    generalize ht : answered { s with
      scnt := 0, frTs := recordTimestamp s.stg, frB := rowFrame tc c a m p, frv := true } 1 = t
    have frame : t.frB = rowFrame tc c a m p := ht ▸ rfl
    have answer := State.answerFromFrame_valid (s := t) (ht ▸ he) (ht ▸ rfl)
    have format : downlinkFormat t.frB = 17#5 := by
      rw [frame, downlinkFormat_eq, rowFrame]
      simp [Config.acceptedFormat]
    have address : icaoAddress t.frB = a := by rw [frame, icaoAddress_eq, rowFrame]; simp
    have code : typeCode t.frB = tc := by rw [frame, typeCode_eq, rowFrame]; simp
    refine ⟨?df, ?icao, ?me, ?typeCode, fun kind hkind => ?kind, ?ts⟩
    case df => exact (answer _).trans (by rw [format]; rfl)
    case icao => exact address ▸ answer _
    case me =>
      rw [← zext64_payload_rowFrame tc c a m p, ← frame]
      exact answer _
    case typeCode => exact code ▸ answer _
    case kind =>
      rw [← kindOf_eq_kindTable, Option.some_inj] at hkind
      exact hkind ▸ code ▸ answer _
    case ts => exact (answer _).trans (ht ▸ rfl)
  case dropped =>
    rwa [State.receiveFrame_invalid ((validate_rowFrame tc c a m p s.poly).not.mpr hresidue)] at consumed

/-! ### Staging a whole record (R61, R109) -/

/-- FRM.PUTB commands stage their bytes one after another from SCNT on, and nothing else but port R changes. -/
theorem execAll_frmPutb (h : List Byte) :
    ∀ s : State, s.err = 0 → s.scnt.val + h.length ≤ 22 →
      ∃ t, execAll (h.map .frmPutb) s = .next t ∧ t.scnt.val = s.scnt.val + h.length ∧
        (∀ j (hj : j < h.length), stagedByte t.stg (s.scnt.val + j) = h[j]) ∧
        (∀ k, k < s.scnt.val → stagedByte t.stg k = stagedByte s.stg k) ∧
        t = { s with stg := t.stg, scnt := t.scnt, portR := t.portR, busy := t.busy } := by
  induction h with
  | nil => exact fun s _ _ => ⟨s, rfl, rfl, nofun, fun _ _ => rfl, rfl⟩
  | cons x rest ih =>
    intro s he hn
    rw [List.length_cons] at hn
    obtain ⟨staged, -, -⟩ := frmPutbStagesOneByte s x he
    obtain ⟨u, hu, hcount, hbyte, hother, hframe⟩ := staged (by omega)
    obtain ⟨t, ht, hcount', hbytes', hother', hframe'⟩ := ih u (by rw [hframe]; exact he) (by omega)
    refine ⟨t, ?run, ?count, ?bytes, ?others, ?frame⟩
    case run => rw [List.map_cons, execAll_cons_next hu, ht]
    case count => rw [hcount', hcount, List.length_cons]; omega
    case bytes =>
      intro j hj
      cases j with
      | zero => exact (hother' _ (by omega)).trans hbyte
      | succ j =>
        rw [List.getElem_cons_succ, ← hbytes' j (Nat.lt_of_succ_lt_succ hj), hcount]
        congr 1
        omega
    case others => exact fun k hk => (hother' k (by omega)).trans (hother k (by omega) (by omega))
    case frame =>
      refine hframe'.trans ?_
      rw [hframe]

/-- Settles O53: after the 22 commands the bytes of the record are staged, so FRM.CHK takes its timestamp and its frame
from them. -/
theorem recordPseudoOperationLoadsFrame : Obligations.RecordPseudoOperationLoadsFrame := by
  intro s h he hempty hlen
  have zero : s.scnt.val = 0 := by rw [hempty]; rfl
  obtain ⟨t, hrun, hcount, hbytes, -, hframe⟩ := execAll_frmPutb h s he (by omega)
  have full : t.scnt.val = 22 := by omega
  have healthy : t.err = 0 := by rw [hframe]; exact he
  have staged (j : Nat) (hj : j < h.length) : stagedByte t.stg j = h[j] := by simpa [zero] using hbytes j hj
  have timestamp : recordTimestamp t.stg = packBytes (h.take 8) := by
    rw [← packBytes_stagedBytes]
    congr 1
    refine List.ext_getElem (by simp [hlen]) fun j hj hj' => ?_
    simp only [List.length_map, List.length_range] at hj
    simp [staged j (by omega)]
  have frame : recordFrame t.stg = frameOfBytes (h.drop 8) := by
    refine frame_ext ?_
    rw [frameBytes_frameOfBytes (by simp [hlen])]
    refine List.ext_getElem (by simp [hlen]) fun j hj hj' => ?_
    rw [length_frameBytes] at hj
    rw [getElem_frameBytes, frameByteAt_recordFrame _ hj, staged _ (by omega), List.getElem_drop]
  have chk : exec .frmChk t = .next (t.receiveFrame (packBytes (h.take 8)) (frameOfBytes (h.drop 8))) := by
    rw [← timestamp, ← frame]
    exact State.checkFrame_full healthy full
  refine ⟨_, (execAll_append_next hrun).trans (execAll_cons_next chk), fun hv => ?_, fun hv => ?_⟩
  all_goals
    have poly : t.poly = s.poly := by rw [hframe]
    rw [← poly] at hv
  · rw [State.receiveFrame_valid hv, hframe, ← hempty]
  · rw [State.receiveFrame_invalid (by simp [hv]), hframe, ← hempty]

/-! ### The header fields by the primitives (R149) -/

/-- A field of a value of at most 64 bits, as `extractUnsigned` gives it. -/
theorem extractUnsigned_zext64 {n start size : Nat} (v : BitVec n) (hn : n ≤ 64) (h1 : 1 ≤ size) (h31 : size ≤ 31)
    (h64 : start + size ≤ 64) :
    extractUnsigned (zext64 v) start size = some (zext64 (v.extractLsb' start size)) := by
  have inside : (1 : Int) ≤ size ∧ (size : Int) ≤ 31 ∧ 0 ≤ (start : Int) ∧ (start : Int) + size ≤ 64 := by omega
  rw [extractUnsigned, if_pos inside, Option.some_inj, Int.toNat_natCast, Int.toNat_natCast]
  apply BitVec.eq_of_toNat_eq
  have width : size ≤ 64 := by omega
  rw [toNat_ushiftRight_and_mask _ _ width, zext64, zext64, BitVec.toNat_setWidth_of_le hn,
    BitVec.toNat_setWidth_of_le width, BitVec.extractLsb'_toNat, Nat.shiftRight_eq_div_pow]

/-- Settles O55: outside its domain `bytesInRange` fails by definition; inside, the bytes packed are the field, and the
smaller fields are shifts and masks. -/
theorem headerFieldsByPrimitives : Obligations.HeaderFieldsByPrimitives := by
  refine ⟨fun bytes first last h => if_neg h, fun f => ⟨?icao, ?payload, ?typeCode, ?format, fun k hk => ?byte⟩⟩
  case icao => exact congrArg some (packBytes_extract f (top := 104) (m := 3) (by decide) (by decide))
  case payload => exact congrArg some (packBytes_extract f (top := 80) (m := 7) (by decide) (by decide))
  case typeCode => exact extractUnsigned_zext64 (payload f) (by decide) (by decide) (by decide) (by decide)
  case format => exact extractUnsigned_zext64 (frameByteAt f 0) (by decide) (by decide) (by decide) (by decide)
  case byte =>
    have inside : k < (frameBytes f).length := by rwa [length_frameBytes]
    rw [byteAt, if_pos (Int.natCast_nonneg k), Int.toNat_natCast, List.getElem?_eq_getElem inside, getElem_frameBytes]

end Sys2Proof.Machine
end

section
/-! What DEM.NEXT answers: the fill phase before the scan, the two ways it returns, its timestamps, a flat signal and a
synthetic frame (43_frame_sync.md R90 to R99; 95_test_vectors.md section 4). -/

open Sys2Proof.Statements

namespace Sys2Proof.Machine

section
variable {s t u : State} {n : Nat}

/-! ### The fill phase (R98) -/

/-- DEM.NEXT in a block that is not faulted and has a legal W starts with the fill phase. -/
theorem exec_demNext (he : s.err = 0) (hw : 1196 ≤ s.capacity) : exec .demNext s = demFill s :=
  (State.command_healthy he _).trans (if_neg hw.not_gt)

theorem demFill_done (h : fill (s.capacity - s.len) s = .done u) : demFill s = demScan 0 u := by
  rw [demFill, h, Progress.resolve]

theorem demFill_wait {left : Nat} (h : fill (s.capacity - s.len) s = .wait left u) :
    demFill s = .next { u with busy := some .demFill } := by
  rw [demFill, h, Progress.resolve]

end

/-- Settles O57: with the missing samples ready the fill phase appends them; with fewer it appends these and ends at the
end mark, in a window that is not scanned, or waits. -/
theorem demNextFillsTheWindow : Obligations.DemNextFillsTheWindow := by
  intro s missing he hw hl heos hmissing hv hp
  have left : s.capacity - s.len = missing := by omega
  rw [exec_demNext he hw]
  refine ⟨fun hn => ?ready, fun hn hend => ?ended, fun hn hsrc => ?waiting⟩
  case ready =>
    rw [Nat.min_eq_left hn] at hp
    exact demFill_done (left ▸ fill_ready missing s heos hmissing.le hn hv hp)
  all_goals
    rw [Nat.min_eq_right hn.le] at hp
    rw [List.take_of_length_le hn.le] at hv
    have short := fill_short missing s _ heos hmissing.le hn hv hp rfl
  case ended =>
    rw [if_pos hend, ← left] at short
    rw [demFill_done short, demScan_not_full]
    · rfl
    · show (s.wbuf ++ s.portS).length ≠ s.capacity
      rw [List.length_append]
      show s.len + s.portS.length ≠ s.capacity
      omega
  case waiting =>
    rw [if_neg (by simp [hsrc]), ← left] at short
    exact demFill_wait short

/-- Settles O43: the fill phase ends at EOS = 1 at once, and the window is not scanned. -/
theorem demNextAfterTheEndAnswersZero : Obligations.DemNextAfterTheEndAnswersZero := by
  intro s he hw heos hl
  rw [exec_demNext he hw, demFill_done (fill_ended heos), demScan_not_full hl.ne]
  rfl

/-! ### The two ways DEM.NEXT returns (R98, R99) -/

section
variable {s t u : State} {n : Nat}

/-- With the whole stream given no command waits. -/
theorem exec_answered_of_whole_stream {i : Instr} (hsrc : s.srcEnded = true) (h : exec i s = .next t) :
    t.busy = none := by
  obtain ⟨-, -, -, -, -, ended⟩ := exec_sameSetting h
  obtain ⟨r, -, hb, -⟩ | ⟨⟨⟨-, hnotEnded⟩, -⟩, -⟩ := exec_ends h
  · exact hb
  · cases hnotEnded.symm.trans (ended.trans hsrc)

/-- A window within its capacity stays so (R73). -/
theorem Advances.len_le (h : Advances s t) (hc : 0 < s.capacity) (hl : s.len ≤ s.capacity) : t.len ≤ t.capacity := by
  refine (h.keeps (P := fun u => 0 < u.capacity ∧ u.len ≤ u.capacity) ?_ ⟨hc, hl⟩).2
  rintro u v ⟨hc, hl⟩ ha
  obtain ⟨below, -⟩ := State.length_retained hc hl
  obtain ⟨x, rest, -, -, -, rfl⟩ | ⟨-, -, rfl⟩ := advance_done ha
  · exact ⟨hc, List.length_append.trans_le below⟩
  · exact ⟨hc, below.le⟩

/-- DEM.NEXT answered: with a frame accepted along its scan, which is in FR; or without one, past the end. -/
theorem DemResult.answered (h : DemResult s t) (hb : t.busy = none) :
    (∃ u prev c w, Advances s u ∧ u.len = u.capacity ∧ u.demodStep prev = .accept c ∧
      u.pos.toNat < Config.positionLimit ∧ advanceBy Config.messageSamples (u.emit c) = .done w ∧
      t = w.respond .ok 1) ∨
    (∃ u, Advances s u ∧ u.len ≠ u.capacity ∧ u.Filled ∧ t = { u with frv := false }.respond .ok 0) := by
  cases h with
  | emitted hu hfull hd hpos hskip =>
    cases hskip with
    | answered hw => exact .inl ⟨_, _, _, _, hu, hfull, hd, hpos, hw, rfl⟩
    | waits => cases hb
  | exhausted hu hnot hend => exact .inr ⟨_, hu, hnot, hend, rfl⟩
  | waitsInStep | waitsInFill => cases hb

/-- CRCR, STG, SCNT, ERR and POLY are as they were. -/
def State.SameOutsideDemodulator (s t : State) : Prop :=
  t.crcr = s.crcr ∧ t.stg = s.stg ∧ t.scnt = s.scnt ∧ t.err = s.err ∧ t.poly = s.poly

theorem keptByDemodulator_sameOutside (s : State) : KeptByDemodulator s.SameOutsideDemodulator where
  advance _ _ hs h := by rw [advance_frame h]; exact hs
  answer _ _ _ hs := hs
  frame _ _ _ _ hs := hs

end

/-- Settles O42: inside the domain there is a next state, with the whole stream given it is answered, and the frame in
FR was accepted by `DemodStep`. -/
theorem demNextReturnsInTwoWays : Obligations.DemNextReturnsInTwoWays := by
  intro s he hw hl hd hsrc
  obtain ⟨t, ht⟩ := exec_demNext_hasNext hw hd
  have hb : t.busy = none := exec_answered_of_whole_stream hsrc ht
  have kept := keptByDemodulator_sameOutside s
  have outside : s.SameOutsideDemodulator t :=
    exec_keeps_of_pulls (i := .demNext) kept.toKeptByAdvances (fun _ => kept) trivial ⟨rfl, rfl, rfl, rfl, rfl⟩ ht
  refine ⟨t, ht, hb, ?_, outside⟩
  have hc : 0 < s.capacity := by omega
  have result := demFill_result hc ((exec_demNext he hw).symm.trans ht)
  obtain ⟨u, prev, c, w, hu, -, hdec, -, hskip, rfl⟩ | ⟨u, hu, hnot, hend, rfl⟩ := result.answered hb
  · left
    obtain ⟨-, -, -, valid⟩ := demodStep_accept hdec
    have frame := (advanceBy_done_advances hskip).frame
    have frv : w.frv = true := by rw [frame]; rfl
    have frB : w.frB = c := by rw [frame]; rfl
    have poly : w.poly = u.poly := by rw [frame]; rfl
    obtain ⟨format, residue⟩ := validate_iff.mp (frB ▸ poly ▸ valid)
    refine ⟨rfl, frv, ?_, residue⟩
    rw [← downlinkFormat_eq]
    exact format
  · right
    have below : u.len < u.capacity := lt_of_le_of_ne (hu.len_le hc hl) hnot
    exact ⟨rfl, rfl, hend below, below⟩

/-! ### Timestamps (R96, R99) -/

section
variable {s t : State} {n : Nat}

/-- In a full window `AdvanceBy(n)` takes n samples, or it meets the end of the stream and the window is not full. -/
theorem advanceBy_of_full (hc : 0 < s.capacity) (hl : s.len = s.capacity) (h : advanceBy n s = .done t) :
    t.pos.toNat = s.pos.toNat + n ∨ (t.eos = true ∧ t.len < t.capacity) := by
  induction n generalizing s with
  | zero => cases h; exact .inl rfl
  | succ n ih =>
    cases ha : advance s with
    | done u =>
      rw [advanceBy_succ_done ha] at h
      obtain ⟨v, rest, -, -, hp, rfl⟩ | ⟨hs, hend, rfl⟩ := advance_done ha
      · have pos : (s.pos + 1).toNat = s.pos.toNat + 1 := State.toNat_pos_consume (s := s) (n := 1) hp
        have onward := ih (s := { s with wbuf := s.retained ++ [v], pos := s.pos + 1, portS := rest }) hc
          (State.length_retained_append hc hl v) h
        refine onward.imp_left fun hpos => hpos.trans ?_
        show (s.pos + 1).toNat + n = _
        omega
      · have below : s.retained.length < s.capacity := (State.length_retained hc hl.le).1
        cases (advanceBy_past_end n (s := { s with wbuf := s.retained, eos := true }) hs hend rfl below).symm.trans h
        exact .inr ⟨rfl, below⟩
    | wait | fault | refused => simp [advanceBy, ha] at h

theorem Advances.pos_le (h : Advances s t) : s.pos.toNat ≤ t.pos.toNat := by
  obtain ⟨taken, -, hpos⟩ := h.keeps (keptByDemodulator_consumed s).advance ⟨[], rfl, rfl⟩
  omega

/-- A DEM.NEXT that answers 1 stamps its frame with 100 times a position it has reached, and leaves the window 1200
samples further on or past the end of the stream. -/
theorem DemResult.emission (h : DemResult s t) (hc : 0 < s.capacity) (hb : t.busy = none)
    (hr : t.portR = some ⟨.ok, 1⟩) :
    ∃ p, s.pos.toNat ≤ p ∧ t.frTs.toNat = 100 * p ∧
      (t.pos.toNat = p + 1200 ∨ (t.eos = true ∧ t.len < t.capacity)) := by
  obtain ⟨u, prev, c, w, hu, hl, -, hpos, hskip, rfl⟩ | ⟨u, -, -, -, rfl⟩ := h.answered hb
  · have skip := advanceBy_of_full (s := u.emit c) (hu.capacity_eq ▸ hc) hl hskip
    refine ⟨u.pos.toNat, hu.pos_le, ?_, skip⟩
    have stamp : w.frTs = u.pos * Config.nsPerSample := by
      rw [(advanceBy_done_advances hskip).frame]
      rfl
    have noWrap : u.pos.toNat * 100 < 2 ^ 64 := by
      unfold Config.positionLimit at hpos
      omega
    show w.frTs.toNat = _
    rw [stamp, BitVec.toNat_mul]
    exact (Nat.mod_eq_of_lt noWrap).trans (Nat.mul_comm _ _)
  · cases hr

end

/-- Settles O44: the second stamp is of a position at or after the one the first skip ends at; past the end of the
stream there is no second frame. -/
theorem emittedTimestampsGrow : Obligations.EmittedTimestampsGrow := by
  intro s t u he ht htb htr hu hub hur
  obtain ⟨hw, hfill⟩ := execDemNext_next he ht
  have hc : 0 < s.capacity := Nat.lt_of_lt_of_le (by decide) hw
  obtain ⟨-, capacity, -⟩ := exec_sameSetting ht
  have het : t.err = 0 := demFill_keeps (keptByDemodulator_err 0) he hfill
  obtain ⟨hwt, hfillt⟩ := execDemNext_next het hu
  obtain ⟨p, -, hstamp, hskip⟩ := (demFill_result hc hfill).emission hc htb htr
  obtain ⟨q, hq, hstamp', -⟩ := (demFill_result (capacity ▸ hc) hfillt).emission (capacity ▸ hc) hub hur
  obtain hpos | ⟨heos, hl⟩ := hskip
  · omega
  · cases (demNextAfterTheEndAnswersZero t het hwt heos hl).symm.trans hu
    cases hur

/-! ### A flat signal (R87) -/

/-- Every sample of the window and of port S has this value. -/
def State.Flat (s : State) (v : Nat) : Prop := (∀ x ∈ s.wbuf, x = v) ∧ ∀ x ∈ s.portS, x = v

section
variable {s t : State} {v : Nat}

theorem Advances.flat (h : Advances s t) (hs : s.Flat v) : t.Flat v := by
  refine h.keeps (P := fun u => u.Flat v) ?_ hs
  rintro u w ⟨hwin, hport⟩ ha
  have retained : ∀ x ∈ u.retained, x = v := fun x hx => hwin x (State.mem_retained hx)
  obtain ⟨y, rest, hy, -, -, rfl⟩ | ⟨hy, -, rfl⟩ := advance_done ha
  · rw [hy] at hport
    obtain ⟨hhead, hrest⟩ := List.forall_mem_cons.mp hport
    exact ⟨List.forall_mem_append.mpr ⟨retained, List.forall_mem_singleton.mpr hhead⟩, hrest⟩
  · exact ⟨retained, hport⟩

/-- In a flat window the two peak sums are equal, and no peak is a strict maximum. -/
theorem State.Flat.not_peakOk (hs : s.Flat v) (hl : 1196 ≤ s.len) (prev : Nat) : ¬ s.peakOk prev = true := by
  obtain ⟨hwin, -⟩ := hs
  have sample {k : Nat} (hk : k < 1196) : s.wbuf.getD k 0 = v := by
    have inside : k < s.wbuf.length := hk.trans_le hl
    rw [List.getD_eq_getElem _ _ inside]
    exact hwin _ (List.getElem_mem inside)
  rw [State.peakOk_iff, State.peakSum_eq, State.nextPeakSum_eq]
  simp (disch := decide) only [sample, lt_irrefl, and_false, not_false_iff]

end

/-- Settles O45: no window of the scan holds an accepted position, so the answer is 0. -/
theorem flatSignalYieldsNoFrame : Obligations.FlatSignalYieldsNoFrame := by
  intro s v he hw hl hd hsrc hwin hport
  have hc : 0 < s.capacity := by omega
  obtain ⟨t, ht⟩ := exec_demNext_hasNext hw hd
  have hb : t.busy = none := exec_answered_of_whole_stream hsrc ht
  refine ⟨t, ht, hb, ?_⟩
  have result := demFill_result hc ((exec_demNext he hw).symm.trans ht)
  obtain ⟨u, prev, c, -, hu, hfull, hdec, -⟩ | ⟨u, -, -, -, rfl⟩ := result.answered hb
  · obtain ⟨-, peak, -⟩ := demodStep_accept hdec
    have enough : 1196 ≤ u.len := by
      rw [hfull, hu.capacity_eq]
      exact hw
    exact absurd peak ((hu.flat ⟨hwin, hport⟩).not_peakOk enough prev)
  · exact ⟨rfl, rfl⟩

/-! ### A synthetic frame -/

section
variable {s : State} {f : Frame} {high low : Nat}

theorem getD_pattern {k : Nat} (hk : k < 1200) : (pattern f high low).getD k 0 = patternAt f high low k := by
  simp [pattern, List.getD, hk]

/-- In the first half of the slot of bit n the level is that of the bit. -/
theorem patternAt_first_half (n : Nat) :
    patternAt f high low (80 + 10 * n) = if f.getMsbD n then high else low := by
  have notPeak : 80 + 10 * n ∉ Config.peakOffsets := by
    simp [Config.peakOffsets]
    omega
  have second : ¬ (85 ≤ 80 + 10 * n ∧ (80 + 10 * n - 85) % 10 = 0 ∧ (!f.getMsbD ((80 + 10 * n - 85) / 10)) = true) := by
    omega
  rw [patternAt, if_neg notPeak, if_neg second]
  simp

/-- In the second half it is the other one. -/
theorem patternAt_second_half (n : Nat) :
    patternAt f high low (85 + 10 * n) = if f.getMsbD n then low else high := by
  have notPeak : 85 + 10 * n ∉ Config.peakOffsets := by
    simp [Config.peakOffsets]
    omega
  have first : ¬ (80 ≤ 85 + 10 * n ∧ (85 + 10 * n - 80) % 10 = 0 ∧ f.getMsbD ((85 + 10 * n - 80) / 10) = true) := by
    omega
  rw [patternAt, if_neg notPeak, if_neg first]
  cases hbit : f.getMsbD n <;> simp [hbit]

/-- The window of a synthetic frame slices to the bits of the frame (R90). -/
theorem sliceBit_pattern (hs : s.wbuf = pattern f high low) (hlevels : low < high) {n : Nat} (hn : n < 112) :
    s.sliceBit n = f.getMsbD n := by
  rw [State.sliceBit_eq, hs, getD_pattern (by omega), getD_pattern (by omega), patternAt_first_half,
    patternAt_second_half]
  cases f.getMsbD n with
  | true => simp [hlevels.le]
  | false => simp [hlevels]

theorem candidate_pattern (hs : s.wbuf = pattern f high low) (hlevels : low < high) : s.candidate = f := by
  refine frame_ext (List.ext_getElem (by simp) fun k hk hk' => ?_)
  rw [length_frameBytes] at hk
  rw [getElem_frameBytes, getElem_frameBytes, frameByteAt_candidate s hk]
  refine BitVec.eq_of_getLsbD_eq fun i hi => ?_
  have bit := s.sliceByte_getLsbD k (i := 7 - i) (by omega)
  rw [show 7 - (7 - i) = i by omega] at bit
  rw [bit, sliceBit_pattern hs hlevels (by omega), frameByteAt, BitVec.getLsbD_extractLsb', BitVec.getMsbD]
  simp [hi, show 8 * k + (7 - i) < 112 by omega, show 112 - 1 - (8 * k + (7 - i)) = 104 - 8 * k + i by omega]

/-- At the preamble of a synthetic frame of enough contrast only the residue is left to decide (R85 to R95). -/
theorem demodStep_pattern (hs : s.wbuf = pattern f high low) (hlevels : low < high) (hcontrast : 10 * low ≤ 4 * high)
    (hformat : frameFormat f = 17#5) :
    s.demodStep 0 = if crc24 s.poly (frameBytes f) ≠ 0 then .rejectCrc else .accept f := by
  have sample {k : Nat} (hk : k < 1200) : s.wbuf.getD k 0 = patternAt f high low k := hs ▸ getD_pattern hk
  have peak : s.peakSum = 4 * high := by
    rw [State.peakSum_eq]
    simp (disch := decide) only [sample]
    simp [patternAt, Config.peakOffsets]
    omega
  have next : s.nextPeakSum = 4 * low := by
    rw [State.nextPeakSum_eq]
    simp (disch := decide) only [sample]
    simp [patternAt, Config.peakOffsets]
    omega
  have floor : s.floorSum = 10 * low := by
    rw [State.floorSum_eq]
    simp (disch := decide) only [sample]
    simp [patternAt, Config.peakOffsets]
    omega
  have format : (s.sliceByte 0).extractLsb' 3 5 = 17#5 := by
    rw [← frameFormat_candidate, candidate_pattern hs hlevels, hformat]
  rw [State.demodStep_eq, candidate_pattern hs hlevels, if_neg (by omega), if_neg (by omega),
    if_neg (not_not.mpr format)]

end

/-- Settles O46: the position is accepted or rejected by its residue alone; an accepted one is emitted, and the
accessors read its frame. -/
theorem syntheticFrameIsFound : Obligations.SyntheticFrameIsFound := by
  intro s f high low he hw hs hlevels hcontrast hformat
  have verdict := demodStep_pattern hs hlevels hcontrast hformat
  refine ⟨fun hresidue hn hv hp => ?found, fun hresidue => ?damaged⟩
  case damaged => rw [verdict, if_pos hresidue]
  case found =>
    rw [if_neg (not_not.mpr hresidue)] at verdict
    have hl : s.len = s.capacity := by rw [State.len, hs, hw]; simp [pattern]
    obtain ⟨scans, emits⟩ := demNextEmitsAcceptedFrame
    obtain ⟨emitted, -⟩ := emits s 0 f (by omega) hl verdict hv (by omega)
    refine ⟨_, (scans s he (by omega) hl).trans (emitted hn), rfl, rfl, rfl, rfl, ?icao, ?tc⟩
    case icao =>
      refine State.answerFromFrame_valid ?_ rfl _
      exact he
    case tc =>
      rw [← typeCode_eq]
      refine State.answerFromFrame_valid ?_ rfl _
      exact he

end Sys2Proof.Machine
end

section
/-! Commands that wait for port S: how the model holds them, and that having waited makes no difference (20_memory.md
R33; 60_exceptions.md R165). -/

open Sys2Proof.Statements

namespace Sys2Proof.Machine

/-! ### Holding (R165) -/

section
variable {s : State} {n : Nat}

/-- Without an item on port S a run of `Advance` operations waits where it stands. -/
theorem advanceBy_hold (hw : s.SourceWaits) (hn : 0 < n) : advanceBy n s = .wait n s := by
  obtain ⟨hs, hsrc⟩ := hw
  obtain ⟨k, rfl⟩ := Nat.exists_eq_add_one_of_ne_zero hn.ne'
  rw [advanceBy, advance_hold hs hsrc]

theorem fill_hold (hw : s.SourceWaits) (heos : s.eos = false) (hn : 0 < n) : fill n s = .wait n s := by
  obtain ⟨hs, hsrc⟩ := hw
  obtain ⟨k, rfl⟩ := Nat.exists_eq_add_one_of_ne_zero hn.ne'
  exact fill_succ_wait heos (advance_hold hs hsrc)

theorem runAdv_hold (hw : s.SourceWaits) : runAdv s = .next { s with busy := some .adv } := by
  obtain ⟨hs, hsrc⟩ := hw
  rw [runAdv, advance_hold hs hsrc]
  rfl

theorem runAdvN_wait {left : Nat} {u : State} (h : advanceBy n s = .wait left u) :
    runAdvN n s = .next { u with busy := some (.advN left) } := by
  rw [runAdvN, h, Progress.resolve]

/-- Going on while port S has no item leaves the waiting command as it was. -/
theorem resume_hold {b : Busy} (hw : s.SourceWaits) (heos : s.eos = false) (hb : b.legal s) :
    resume b s = .next { s with busy := some b } := by
  cases b with
  | adv => exact runAdv_hold hw
  | advN left =>
    obtain ⟨hleft, -⟩ := hb
    exact runAdvN_wait (advanceBy_hold hw hleft)
  | demFill =>
    have missing : s.len < s.capacity := hb
    exact demFill_wait (fill_hold hw heos (by omega))
  | demStep prev =>
    obtain ⟨hs, hsrc⟩ := hw
    rw [resume, demMove, advance_hold hs hsrc]
    rfl
  | demSkip left =>
    obtain ⟨hleft, -⟩ := hb
    rw [resume, demSkip, advanceBy_hold hw hleft]
    rfl

end

/-- Settles O11: each form waits again where it stands, and the step leaves the whole state. -/
theorem waitingCommandHolds : Obligations.WaitingCommandHolds := by
  intro s b hrst hb hlegal heos hs hsrc
  have same : { s with busy := some b } = s := by
    rw [← hb]
  simp only [step, hrst, hb, Bool.false_eq_true, if_false]
  rw [resume_hold ⟨hs, hsrc⟩ heos hlegal, same]

/-- Settles O34: WIN.ADV waits at once, WIN.ADVN when the samples that are ready have gone in, and a rejected position
in its `Advance`. -/
theorem waitingCommandsRememberWhatIsLeft : Obligations.WaitingCommandsRememberWhatIsLeft := by
  refine ⟨fun s he hs hsrc => (State.command_healthy he _).trans (runAdv_hold ⟨hs, hsrc⟩),
    fun s n he hc hl hv hp hn hsrc => ?advN, fun s prev hl hreject hs hsrc => ?step⟩
  case advN =>
    have all : advanceBy s.portS.length s = .done (s.consume s.portS.length) :=
      advanceBy_ready _ s hc hl le_rfl (by simpa using hv) hp
    have rest : advanceBy (n - s.portS.length) (s.consume s.portS.length)
        = .wait (n - s.portS.length) (s.consume s.portS.length) :=
      advanceBy_hold ⟨List.drop_length, hsrc⟩ (by omega)
    rw [← advanceBy_add_done all, Nat.add_sub_cancel' hn.le] at rest
    refine (State.command_healthy he _).trans ((runAdvN_wait rest).trans ?_)
    simp [State.consume]
  case step =>
    have last : scan s.portS prev s = .wait s.peakSum s := scan_of_last_turn fun onward => by
      rw [scanTurn_rejected hl hreject, advance_hold hs hsrc]
      rfl
    rw [demScan, last]

/-! ### What is in progress does not matter to going on -/

section
variable {s t u : State} {n left : Nat}

/-- The same operations from another start. -/
def Progress.map (f : State → State) : Progress → Progress
  | .done s => .done (f s)
  | .wait left s => .wait left (f s)
  | .fault e => .fault e
  | .refused r => .refused r

theorem Progress.resolve_map (f : State → State) (p : Progress) (whenDone : State → Outcome)
    (whenWaiting : Nat → State → Outcome) :
    (p.map f).resolve whenDone whenWaiting
      = p.resolve (fun u => whenDone (f u)) fun left u => whenWaiting left (f u) := by
  cases p <;> rfl

/-- The state with another command in progress. -/
def State.withBusy (s : State) (b : Option Busy) : State := { s with busy := b }

variable (b : Option Busy)

/-- `Advance` does not look at the command in progress. -/
theorem advance_withBusy (s : State) : advance (s.withBusy b) = (advance s).map (·.withBusy b) := by
  cases hs : s.portS with
  | nil =>
    by_cases hsrc : s.srcEnded = true
    · rw [advance_end hs hsrc]
      exact advance_end (s := s.withBusy b) hs hsrc
    · rw [Bool.not_eq_true] at hsrc
      rw [advance_hold hs hsrc]
      exact advance_hold (s := s.withBusy b) hs hsrc
  | cons v rest =>
    by_cases hv : 2 ^ s.sampleWidth ≤ v
    · rw [advance_too_wide hs hv]
      exact advance_too_wide (s := s.withBusy b) hs hv
    rw [not_le] at hv
    by_cases hp : Config.positionLimit ≤ s.pos.toNat + 1
    · rw [advance_past_limit hs hv hp]
      exact advance_past_limit (s := s.withBusy b) hs hv hp
    · rw [advance_sample hs hv (not_le.mp hp)]
      exact advance_sample (s := s.withBusy b) hs hv (not_le.mp hp)

theorem advanceBy_withBusy (n : Nat) (s : State) : advanceBy n (s.withBusy b) = (advanceBy n s).map (·.withBusy b) := by
  induction n generalizing s with
  | zero => rfl
  | succ n ih =>
    rw [advanceBy, advanceBy, advance_withBusy]
    cases advance s with
    | done u => exact ih u
    | wait | fault | refused => rfl

theorem fill_withBusy (n : Nat) (s : State) : fill n (s.withBusy b) = (fill n s).map (·.withBusy b) := by
  induction n generalizing s with
  | zero => rfl
  | succ n ih =>
    by_cases heos : s.eos = true
    · rw [fill_ended heos]
      exact fill_ended heos
    rw [fill, fill, advance_withBusy, if_neg heos, if_neg (show ¬ (s.withBusy b).eos = true from heos)]
    cases advance s with
    | done u => exact ih u
    | wait | fault | refused => rfl

theorem runAdv_withBusy (s : State) : runAdv (s.withBusy b) = runAdv s := by
  rw [runAdv, advance_withBusy, Progress.resolve_map]
  rfl

theorem runAdvN_withBusy (n : Nat) (s : State) : runAdvN n (s.withBusy b) = runAdvN n s := by
  rw [runAdvN, advanceBy_withBusy, Progress.resolve_map]
  rfl

theorem demSkip_withBusy (n : Nat) (s : State) : demSkip n (s.withBusy b) = demSkip n s := by
  rw [demSkip, advanceBy_withBusy, Progress.resolve_map]
  rfl

theorem demEmit_withBusy (c : Frame) (s : State) : demEmit c (s.withBusy b) = demEmit c s :=
  if_congr Iff.rfl rfl (demSkip_withBusy b _ (s.emit c))

/-- The `Advance` of a rejected position, when the scan after it does not look at the command in progress either. -/
theorem demMove_withBusy_of {prev : Nat}
    (h : ∀ u, advance s = .done u → demScan prev (u.withBusy b) = demScan prev u) :
    demMove prev (s.withBusy b) = demMove prev s := by
  rw [demMove, advance_withBusy, Progress.resolve_map, demMove]
  cases ha : advance s with
  | done u => exact h u ha
  | wait | fault | refused => rfl

theorem demScan_withBusy (hc : 0 < s.capacity) (prev : Nat) : demScan prev (s.withBusy b) = demScan prev s := by
  refine scan_induction (motive := fun prev s => demScan prev (s.withBusy b) = demScan prev s) ?exhausted ?accepted
    ?rejected prev s hc
  case exhausted =>
    intro prev s hnot
    exact (demScan_not_full (s := s.withBusy b) hnot).trans (demScan_not_full hnot).symm
  case accepted =>
    intro prev s c hl hd
    rw [demScan_accept hl hd, demScan_accept (s := s.withBusy b) hl hd, demEmit_withBusy]
  case rejected =>
    intro prev s hc hl hreject onward
    rw [demScan_reject hc hl hreject, demScan_reject (s := s.withBusy b) hc hl hreject]
    exact demMove_withBusy_of b onward

theorem demFill_withBusy (hc : 0 < s.capacity) : demFill (s.withBusy b) = demFill s := by
  have phase : fill ((s.withBusy b).capacity - (s.withBusy b).len) (s.withBusy b)
      = (fill (s.capacity - s.len) s).map (·.withBusy b) := fill_withBusy b _ s
  rw [demFill, phase, Progress.resolve_map, demFill]
  cases hu : fill (s.capacity - s.len) s with
  | done u => exact demScan_withBusy b ((fill_done_advances hu).capacity_eq ▸ hc) 0
  | wait | fault | refused => rfl

theorem demMove_withBusy (hc : 0 < s.capacity) (prev : Nat) : demMove prev (s.withBusy b) = demMove prev s :=
  demMove_withBusy_of b fun _ ha => demScan_withBusy b ((Advances.refl.next ha).capacity_eq ▸ hc) prev

end

/-! ### More samples on port S -/

/-- The state with more samples on port S behind those that are there, and the end mark behind them or not. -/
def State.extend (s : State) (samples : List Nat) (ended : Bool) : State :=
  { s with portS := s.portS ++ samples, srcEnded := ended }

section
variable {s t u : State} {n left : Nat} {samples : List Nat} {ended : Bool}

/-- Before the end mark an `Advance` that completes takes the sample it would have taken with more behind it. -/
theorem advance_extend (hsrc : s.srcEnded = false) (h : advance s = .done u) :
    u.srcEnded = false ∧ advance (s.extend samples ended) = .done (u.extend samples ended) := by
  obtain ⟨v, rest, hs, hv, hp, rfl⟩ | ⟨-, hend, -⟩ := advance_done h
  · refine ⟨hsrc, ?_⟩
    have port : (s.extend samples ended).portS = v :: (rest ++ samples) := by
      rw [State.extend, hs, List.cons_append]
    exact advance_sample port hv hp
  · cases hsrc.symm.trans hend

/-- With more samples behind those it takes, a run that completes does the same, and one that waits goes on with what it
has left. -/
theorem advanceBy_extend (hsrc : s.srcEnded = false) :
    (∀ u, advanceBy n s = .done u → advanceBy n (s.extend samples ended) = .done (u.extend samples ended)) ∧
    ∀ left u, advanceBy n s = .wait left u →
      advanceBy n (s.extend samples ended) = advanceBy left (u.extend samples ended) := by
  induction n generalizing s with
  | zero =>
    refine ⟨fun u h => ?_, nofun⟩
    cases h
    rfl
  | succ n ih =>
    cases ha : advance s with
    | done v =>
      obtain ⟨hv, hext⟩ := advance_extend (samples := samples) (ended := ended) hsrc ha
      rw [advanceBy_succ_done ha, advanceBy_succ_done hext]
      exact ih hv
    | wait k v =>
      obtain ⟨-, rfl, -⟩ := advance_wait ha
      simp only [advanceBy, ha]
      refine ⟨nofun, fun left u h => ?_⟩
      cases h
      rfl
    | fault | refused => simp [advanceBy, ha]

theorem fill_extend (hsrc : s.srcEnded = false) :
    (∀ u, fill n s = .done u → u.srcEnded = false ∧
      fill n (s.extend samples ended) = .done (u.extend samples ended)) ∧
    ∀ left u, fill n s = .wait left u → fill n (s.extend samples ended) = fill left (u.extend samples ended) := by
  induction n generalizing s with
  | zero =>
    refine ⟨fun u h => ?_, nofun⟩
    cases h
    exact ⟨hsrc, rfl⟩
  | succ n ih =>
    by_cases heos : s.eos = true
    · rw [fill_ended heos, fill_ended (s := s.extend samples ended) heos]
      refine ⟨fun u h => ?_, nofun⟩
      cases h
      exact ⟨hsrc, rfl⟩
    rw [Bool.not_eq_true] at heos
    cases ha : advance s with
    | done v =>
      obtain ⟨hv, hext⟩ := advance_extend (samples := samples) (ended := ended) hsrc ha
      rw [fill_succ_done heos ha, fill_succ_done (s := s.extend samples ended) heos hext]
      exact ih hv
    | wait k v =>
      obtain ⟨-, rfl, -⟩ := advance_wait ha
      rw [fill_succ_wait heos ha]
      refine ⟨nofun, fun left u h => ?_⟩
      cases h
      rfl
    | fault | refused => simp [fill, heos, ha]

/-- `t` waits, and `o` is what going on gives once these samples have come. -/
def GoesOnAs (t : State) (samples : List Nat) (ended : Bool) (o : Outcome) : Prop :=
  t.SourceWaits ∧ ∃ b, t.busy = some b ∧ o = resume b { t with portS := samples, srcEnded := ended }

/-- A command that begins to wait goes on from the same state with the samples that have come. -/
theorem goesOnAs_withBusy {b : Busy} (hw : u.SourceWaits)
    (hsame : resume b ((u.extend samples ended).withBusy (some b)) = resume b (u.extend samples ended)) :
    GoesOnAs (u.withBusy (some b)) samples ended (resume b (u.extend samples ended)) := by
  refine ⟨hw, b, rfl, ?_⟩
  have port : u.portS ++ samples = samples := by rw [hw.1, List.nil_append]
  rw [← hsame, State.extend, port]
  rfl

theorem runAdv_goesOn (hsrc : s.srcEnded = false) (h : runAdv s = .next t) (hb : t.busy ≠ none) :
    GoesOnAs t samples ended (runAdv (s.extend samples ended)) := by
  obtain ⟨u, hu, ht⟩ | ⟨left, u, hu, ht⟩ := Progress.resolve_next h <;> cases ht
  · exact absurd rfl hb
  · obtain ⟨-, rfl, hs, -⟩ := advance_wait hu
    exact goesOnAs_withBusy (b := .adv) ⟨hs, hsrc⟩ (runAdv_withBusy _ _)

theorem runAdvN_goesOn (hsrc : s.srcEnded = false) (h : runAdvN n s = .next t) (hb : t.busy ≠ none) :
    GoesOnAs t samples ended (runAdvN n (s.extend samples ended)) := by
  obtain ⟨u, hu, ht⟩ | ⟨left, u, hu, ht⟩ := Progress.resolve_next h <;> cases ht
  · exact absurd rfl hb
  · obtain ⟨-, hw, -, -⟩ := advanceBy_wait_advances hu
    rw [runAdvN, (advanceBy_extend hsrc).2 left u hu]
    exact goesOnAs_withBusy (b := .advN left) hw (runAdvN_withBusy _ left _)

theorem demSkip_goesOn (hsrc : s.srcEnded = false) (h : demSkip n s = .next t) (hb : t.busy ≠ none) :
    GoesOnAs t samples ended (demSkip n (s.extend samples ended)) := by
  obtain ⟨u, hu, ht⟩ | ⟨left, u, hu, ht⟩ := Progress.resolve_next h <;> cases ht
  · exact absurd rfl hb
  · obtain ⟨-, hw, -, -⟩ := advanceBy_wait_advances hu
    rw [demSkip, (advanceBy_extend hsrc).2 left u hu]
    exact goesOnAs_withBusy (b := .demSkip left) hw (demSkip_withBusy _ left _)

/-- The emission does not depend on what port S holds; its skip may wait. -/
theorem demEmit_goesOn {c : Frame} (hsrc : s.srcEnded = false) (h : demEmit c s = .next t) (hb : t.busy ≠ none) :
    GoesOnAs t samples ended (demEmit c (s.extend samples ended)) := by
  unfold demEmit at h
  split at h
  next => cases h
  next hp =>
    have emission : demEmit c (s.extend samples ended)
        = demSkip Config.messageSamples ((s.emit c).extend samples ended) := if_neg hp
    rw [emission]
    exact demSkip_goesOn (s := s.emit c) hsrc h hb

/-- The turns of the scan are the same with more samples behind those it takes, until it waits. -/
theorem demScan_goesOn (hc : 0 < s.capacity) (prev : Nat) :
    s.srcEnded = false → demScan prev s = .next t → t.busy ≠ none →
      GoesOnAs t samples ended (demScan prev (s.extend samples ended)) := by
  refine scan_induction (motive := fun prev s => s.srcEnded = false → demScan prev s = .next t → t.busy ≠ none →
    GoesOnAs t samples ended (demScan prev (s.extend samples ended))) ?exhausted ?accepted ?rejected prev s hc
  case exhausted =>
    intro prev s hnot _ h hb
    cases (demScan_not_full hnot).symm.trans h
    exact absurd rfl hb
  case accepted =>
    intro prev s c hl hd hsrc h hb
    rw [demScan_accept (s := s.extend samples ended) hl hd]
    exact demEmit_goesOn hsrc ((demScan_accept hl hd).symm.trans h) hb
  case rejected =>
    intro prev s hc hl hreject onward hsrc h hb
    have move : demScan prev (s.extend samples ended) = demMove s.peakSum (s.extend samples ended) :=
      demScan_reject (s := s.extend samples ended) hc hl hreject
    rw [move]
    obtain ⟨u, hu, ht⟩ | ⟨left, u, hu, ht⟩ := Progress.resolve_next ((demScan_reject hc hl hreject).symm.trans h)
    · obtain ⟨hv, hext⟩ := advance_extend (samples := samples) (ended := ended) hsrc hu
      rw [demMove, hext]
      exact onward u hu hv ht hb
    · obtain ⟨-, rfl, hs, -⟩ := advance_wait hu
      cases ht
      have same := demMove_withBusy (s := u.extend samples ended) (some (.demStep u.peakSum)) hc u.peakSum
      exact goesOnAs_withBusy (b := .demStep u.peakSum) ⟨hs, hsrc⟩ same

theorem demFill_goesOn (hc : 0 < s.capacity) (hsrc : s.srcEnded = false) (h : demFill s = .next t)
    (hb : t.busy ≠ none) : GoesOnAs t samples ended (demFill (s.extend samples ended)) := by
  obtain ⟨whenDone, whenWaiting⟩ :=
    fill_extend (n := s.capacity - s.len) (samples := samples) (ended := ended) hsrc
  obtain ⟨u, hu, ht⟩ | ⟨left, u, hu, ht⟩ := Progress.resolve_next h
  · obtain ⟨hv, hext⟩ := whenDone u hu
    rw [demFill_done (s := s.extend samples ended) hext]
    exact demScan_goesOn ((fill_done_advances hu).capacity_eq ▸ hc) 0 hv ht hb
  · obtain ⟨advances, hw⟩ := fill_wait_advances hu
    obtain ⟨hleft, -⟩ := demFill_wait_len hu
    have missing : left = u.capacity - u.len := by omega
    have again : demFill (s.extend samples ended) = demFill (u.extend samples ended) := by
      have phase := whenWaiting left u hu
      rw [missing] at phase
      exact congrArg (fun p : Progress => p.resolve (demScan 0) fun _ v => .next { v with busy := some .demFill }) phase
    cases ht
    rw [again]
    exact goesOnAs_withBusy (b := .demFill) hw (demFill_withBusy _ (advances.capacity_eq ▸ hc))

theorem exec_goesOn {i : Instr} (hi : pullsSamples i) (he : s.err = 0) (h : exec i s = .next t) (hb : t.busy ≠ none) :
    GoesOnAs t samples ended (exec i (s.extend samples ended)) := by
  have hsrc : s.srcEnded = false := by
    obtain ⟨-, -, -, -, -, ended⟩ := exec_sameSetting h
    obtain ⟨r, -, hnone, -⟩ | ⟨⟨⟨-, hsrc⟩, -⟩, -⟩ := exec_ends h
    · exact absurd hnone hb
    · exact ended.symm.trans hsrc
  have healthy (k : Outcome) : (s.extend samples ended).command k = k :=
    State.command_healthy (s := s.extend samples ended) he k
  cases i with
  | winAdv =>
    rw [exec, execWinAdv, healthy]
    exact runAdv_goesOn hsrc ((State.command_healthy he _).symm.trans h) hb
  | winAdvn n =>
    rw [exec, execWinAdvn, healthy]
    exact runAdvN_goesOn hsrc ((State.command_healthy he _).symm.trans h) hb
  | demNext =>
    obtain ⟨hw, hfill⟩ := execDemNext_next he h
    rw [exec_demNext (s := s.extend samples ended) he hw]
    exact demFill_goesOn (Nat.lt_of_lt_of_le (by decide) hw) hsrc hfill hb
  | _ => exact hi.elim

end

/-- Settles O12: what the command has left when it waits is what it still does on a port S with more samples. -/
theorem waitingDoesNotChangeTheResult : Obligations.WaitingDoesNotChangeTheResult := by
  intro i s t b samples ended hi he _ h hb
  obtain ⟨⟨hport, hsrc⟩, b', hb', hresume⟩ :=
    exec_goesOn (samples := samples) (ended := ended) hi he h (by simp [hb])
  obtain rfl : b' = b := Option.some.inj (hb'.symm.trans hb)
  exact ⟨hport, hsrc, hresume.symm⟩

end Sys2Proof.Machine
end
